-- ==== Sys2Proof/Word.lean ====
section
/-! DEFINITION. The two word types of the block: the 32-bit command and response words (R85, R95) and the
bytes of the memory subsystem (R13, R60). -/

namespace Sys2Proof

/-- A command word or a response word, bit 0 the least significant (R10, R85, R95). -/
abbrev Word := BitVec 32

/-- One byte of the memory subsystem (R13: width 1 is the only width). -/
abbrev Byte := BitVec 8

end Sys2Proof
end

