-- ==== Sys2Proof/Config.lean ====
section
/-! DEFINITION. What an implementation fixes: the parameters R8 names without a value, as ONE record that the
state carries and no step changes (notes/assumptions/1.md), the opaque collaborator types (R8, R33-R35, D39),
and the free values: what the collaborators answer (R14, D43) and the open tile-map address function (D19).
The spec's default values of the parameters are in Sys2Proof/Machine/Params.lean. -/

namespace Sys2Proof

/-- A tile index, `Map.tileNumberAt`'s answer: an opaque token (R33: the source does not give its type).
DESIGN CHOICE, notes/assumptions/6.md. -/
structure TileIndex where
  token : Nat
deriving DecidableEq, Repr, Inhabited

/-- TILE, "a full tile object": an opaque token (R8, R34). DESIGN CHOICE, notes/assumptions/6.md. -/
structure Tile where
  token : Nat
deriving DecidableEq, Repr, Inhabited

/-- PIXEL, one pixel sample: an opaque token (R8, R35). DESIGN CHOICE, notes/assumptions/6.md. -/
structure Pixel where
  token : Nat
deriving DecidableEq, Repr, Inhabited

/-- What one `Pipe.process` call brings back (R78): the cycles it consumed, and the column it wrote into the
screen cursor during the call (`none`: it left the column alone). -/
structure PipeAnswer where
  cost   : Nat
  newCol : Option Nat
deriving DecidableEq, Repr, Inhabited

/-- The five interrupt kinds (R98, R165). -/
inductive IrqKind where
  | vblank | lcdcStat | timer | serial | joypad
deriving DecidableEq, Repr

/-- An Interrupt Descriptor: "a dispatch vector address and a flag-bit position" (R165). The vector is held in
the 16 bits the response word gives it (R95). -/
structure IrqDescriptor where
  vector : BitVec 16
  bit    : Fin 8
deriving DecidableEq, Repr

/-- IRQ_TABLE: one descriptor per kind (R8, R165). -/
structure IrqTable where
  vblank   : IrqDescriptor
  lcdcStat : IrqDescriptor
  timer    : IrqDescriptor
  serial   : IrqDescriptor
  joypad   : IrqDescriptor
deriving DecidableEq, Repr

/-- The seven memory-mapped byte registers the block uses (R40). -/
inductive Reg where
  | lcdc | stat | scy | scx | ly | iflag | ienable
deriving DecidableEq, Repr

/-- Which function TILE_MAP_ADDR is (R8, R142, D19): the open parameter, of which nothing is known, or the
spec's own test instance, which only its test vectors use. -/
inductive TileMapFunction where
  | openParameter | d19TestInstance
deriving DecidableEq, Repr

/-- The implementation parameters of R8. ELAPSED_WIDTH is not among them: the command word's format T fixes it
at 24 bits (R89). -/
structure Config where
  /-- SCREEN_W, the width SCX is reduced by (R29, R142). -/
  screenW     : Nat
  /-- SCREEN_H, the height SCY is reduced by (R29, R142). -/
  screenH     : Nat
  /-- VISIBLE_ROWS (R120, R122). -/
  visibleRows : Nat
  /-- ADDR_WIDTH, in bits (R60). -/
  addrWidth   : Nat
  addrLcdc    : Nat
  addrStat    : Nat
  addrScy     : Nat
  addrScx     : Nat
  addrLy      : Nat
  addrIf      : Nat
  addrIe      : Nat
  /-- IRQ_TABLE (R165). -/
  irq         : IrqTable
  /-- STAT_M0_TEST_MASK, STAT_M0_SET_MASK: the mode-0 latch (R42, R118). -/
  statM0Test  : Byte
  statM0Set   : Byte
  /-- STAT_M1_TEST_MASK, STAT_M1_SET_MASK: the mode-1 latch (R42, R118). -/
  statM1Test  : Byte
  statM1Set   : Byte
  /-- TILE_MAP_ADDR (R142). -/
  tileMap     : TileMapFunction
deriving DecidableEq, Repr

/-! Free values: no body, so nothing can be proved of them (notes/assumptions/3.md, 4.md). Each `Nat` argument
of a collaborator's free answer is the number of answers that collaborator has given before. -/

/-- A free answer of `Map.base()` (R76). -/
opaque Config.freeMapBase : Nat → Nat
/-- A free answer of `Map.tileNumberAt` (R76). -/
opaque Config.freeTileNumber : Nat → TileIndex
/-- A free answer of `Map.tileFor` (R76). -/
opaque Config.freeTile : Nat → Tile
/-- A free answer of `Tile.rowPixels` (R77); it may be longer than the contract allows. -/
opaque Config.freeRowPixels : Nat → List Pixel
/-- A free answer of `Pipe.process` (R78); its cost may be the forbidden 0. -/
opaque Config.freePipeAnswer : Nat → PipeAnswer
/-- A free answer of `Pipe.idle()` (R79). -/
opaque Config.freePipeIdle : Nat → Bool
/-- The open parameter TILE_MAP_ADDR(base, scx', scy', row, x) (R8, R142, D19). -/
opaque Config.openTileMapAddr : Nat → Nat → Nat → Nat → Nat → Nat

end Sys2Proof
end

