-- ==== Sys2Proof/Syntax.lean ====
section
/-! DEFINITION. The commands of the block (R2, R87), one constructor per row of spec/opcode_table.json, and the
two reasons for which the spec gives an input no meaning (R185). -/

namespace Sys2Proof

/-- A command on the block's command port. -/
inductive Instr where
  /-- TICK (R105): advance the sequencer by `n` host-clock cycles, 0 ≤ n < 2^24. -/
  | tick (n : Nat)
  /-- FPROC (R140): one step of the Tile Fetcher. -/
  | fproc
  /-- FRESET (R146): the Fetcher back to the start of a scanline. -/
  | freset
  /-- RESOLVE (R166): the highest-priority interrupt pending in request flags `req` under enable mask `en`. -/
  | resolve (req en : Byte)
  /-- RESET (R200): the block's own state to its reset values. -/
  | reset
deriving DecidableEq, Repr

/-- Why the model gives an input no meaning (R185). -/
inductive RefuseReason where
  /-- RESERVED_ENCODING: the word is no command (R91, R92). -/
  | reservedEncoding
  /-- COLLABORATOR_ANSWER: a pixel row longer than 8 samples (R77, R144). -/
  | collaboratorAnswer
deriving DecidableEq, Repr

end Sys2Proof
end

