-- ==== Sys2Proof/Machine/Params.lean ====
section
/-! DEFINITION. The constants of R7, the spec's default parameter values of R8, and where each register stands. -/

namespace Sys2Proof.Machine

/-- OAM_BUDGET (R7): cycles of OAM_SEARCH. -/
def oamBudget : Nat := 80
/-- PT_BUDGET (R7): "nominal" cycles of PIXEL_TRANSFER. -/
def ptBudget : Nat := 172
/-- HBLANK_BUDGET (R7): cycles of HBLANK. -/
def hblankBudget : Nat := 204
/-- VBLANK_LINE_BUDGET (R7): cycles of each VBLANK scanline. -/
def vblankLineBudget : Nat := 456
/-- VBLANK_LINES (R7): VBLANK scanlines per frame. -/
def vblankLines : Nat := 10
/-- FETCHER_FREQUENCY (R7): Fetcher steps per fetch micro-step. -/
def fetcherFrequency : Nat := 2
/-- TILE_CURSOR_STEP (R7): pixels added to the tile cursor by each READ_TILE_NUM. -/
def tileCursorStep : Nat := 8
/-- TILE_ROW_PIXELS (R7): longest Fetched Pixel Row, and the divisor of `row mod 8`. -/
def tileRowPixels : Nat := 8
/-- SPRITE_SIZE_BIT (R7): the LCDC bit that selects sprite height. -/
def spriteSizeBit : Nat := 2
/-- SPRITE_H_SMALL (R7). -/
def spriteHSmall : Nat := 8
/-- SPRITE_H_LARGE (R7). -/
def spriteHLarge : Nat := 16

/-- LINE_CYCLES (R9). -/
def lineCycles : Nat := oamBudget + ptBudget + hblankBudget

/-- FRAME_CYCLES (R9). -/
def frameCycles (c : Config) : Nat := c.visibleRows * lineCycles + vblankLines * vblankLineBudget

/-- What a memory byte that nothing has written reads as, INIT_REGS being a launch input under no law (R53, R201).
DESIGN CHOICE, unsafe: notes/assumptions/2.md. -/
def Memory.initByte : Byte := 0

/-- The default IRQ_TABLE of R8 and R165. -/
def defaultIrqTable : IrqTable :=
  { vblank   := ⟨0x0040, 0⟩
    lcdcStat := ⟨0x0048, 1⟩
    timer    := ⟨0x0050, 2⟩
    serial   := ⟨0x0058, 3⟩
    joypad   := ⟨0x0060, 4⟩ }

/-- The default parameter values of R8, with TILE_MAP_ADDR left open. -/
def defaultConfig : Config :=
  { screenW := 160, screenH := 144, visibleRows := 144, addrWidth := 16
    addrLcdc := 0xFF40, addrStat := 0xFF41, addrScy := 0xFF42, addrScx := 0xFF43
    addrLy := 0xFF44, addrIf := 0xFF0F, addrIe := 0xFFFF
    irq := defaultIrqTable
    statM0Test := 0x08, statM0Set := 0x08, statM1Test := 0x10, statM1Set := 0x10
    tileMap := .openParameter }

/-- The address of a register (R40): ADDR_LCDC to ADDR_IE of R8. -/
def regAddr (c : Config) : Reg → Nat
  | .lcdc    => c.addrLcdc
  | .stat    => c.addrStat
  | .scy     => c.addrScy
  | .scx     => c.addrScx
  | .ly      => c.addrLy
  | .iflag   => c.addrIf
  | .ienable => c.addrIe

/-- The descriptor of a kind (R165). -/
def irqDescriptor (t : IrqTable) : IrqKind → IrqDescriptor
  | .vblank   => t.vblank
  | .lcdcStat => t.lcdcStat
  | .timer    => t.timer
  | .serial   => t.serial
  | .joypad   => t.joypad

end Sys2Proof.Machine
end

