-- ==== Sys2Proof/WellFormed.lean ====
section
/-! DEFINITION. Which commands can be encoded (R89, R99, R100) and which parameter values the spec admits
(R8, R165, D9). -/

namespace Sys2Proof

/-- A command whose operands are in the range the command word gives them: TICK's count is a 24-bit number (R89);
RESOLVE's operands are bytes by their type (R90). -/
abbrev Instr.WellFormed : Instr → Prop
  | .tick n      => n < 2 ^ 24
  | .fproc       => True
  | .freset      => True
  | .resolve _ _ => True
  | .reset       => True

/-- The seven register addresses (R40). -/
def Config.regAddrs (c : Config) : List Nat :=
  [c.addrLcdc, c.addrStat, c.addrScy, c.addrScx, c.addrLy, c.addrIf, c.addrIe]

/-- The five descriptors in priority order (R165). -/
def Config.descriptors (c : Config) : List IrqDescriptor :=
  [c.irq.vblank, c.irq.lcdcStat, c.irq.timer, c.irq.serial, c.irq.joypad]

/-- The parameter values the spec admits. -/
structure Config.Wf (c : Config) : Prop where
  /-- SCREEN_W ≥ 1 (R8). -/
  screenW_pos : 1 ≤ c.screenW
  /-- SCREEN_H ≥ 1 (R8). -/
  screenH_pos : 1 ≤ c.screenH
  /-- VISIBLE_ROWS ≥ 1 (R8). -/
  visibleRows_pos : 1 ≤ c.visibleRows
  /-- VISIBLE_ROWS + VBLANK_LINES ≤ 256 (R8, D22). -/
  rows_fit : c.visibleRows + Machine.vblankLines ≤ 256
  /-- The seven addresses lie in the address space of ADDR_WIDTH bits (R60). -/
  addrs_fit : ∀ a ∈ c.regAddrs, a < 2 ^ c.addrWidth
  /-- The seven addresses are distinct (D9). -/
  addrs_distinct : c.regAddrs.Nodup
  /-- The five bit positions are distinct (R165). -/
  bits_distinct : (c.descriptors.map (·.bit)).Nodup
  /-- "Vectors rise with falling priority" (R165). -/
  vectors_rise : (c.descriptors.map (·.vector.toNat)).Pairwise (· < ·)

/-- `Config.Wf` as a Boolean check (`Sys2Proof.Laws.configWf_iff` says the two agree). -/
def Config.wfCheck (c : Config) : Bool :=
  decide (1 ≤ c.screenW) && decide (1 ≤ c.screenH) && decide (1 ≤ c.visibleRows) &&
  decide (c.visibleRows + Machine.vblankLines ≤ 256) &&
  c.regAddrs.all (fun a => decide (a < 2 ^ c.addrWidth)) &&
  decide c.regAddrs.Nodup && decide (c.descriptors.map (·.bit)).Nodup &&
  decide ((c.descriptors.map (·.vector.toNat)).Pairwise (· < ·))

end Sys2Proof
end

