-- ==== Sys2Proof/Decode.lean ====
section
/-! DEFINITION. The command word: its decoder, total on 32-bit words (R91), its encoder (R101), and the rows of
spec/opcode_table.json as masks and matches (R88-R90). -/

namespace Sys2Proof

/-- `op = cmd[3:0]` (R86). -/
def cmdOp (cmd : Word) : BitVec 4 := cmd.extractLsb' 0 4
/-- `z0 = cmd[7:4]`, reserved (R86). -/
def cmdZ0 (cmd : Word) : BitVec 4 := cmd.extractLsb' 4 4
/-- `opnd = cmd[31:8]` (R86). -/
def cmdOpnd (cmd : Word) : BitVec 24 := cmd.extractLsb' 8 24
/-- `req = cmd[15:8]` of format R (R90). -/
def cmdReq (cmd : Word) : Byte := cmd.extractLsb' 8 8
/-- `en = cmd[23:16]` of format R (R90). -/
def cmdEn (cmd : Word) : Byte := cmd.extractLsb' 16 8
/-- `cmd[31:24]`, which format R reserves (R90). -/
def cmdTop (cmd : Word) : Byte := cmd.extractLsb' 24 8

/-- A format-N word is a command only when its operand field is zero (R88). -/
def decodeFormatN (cmd : Word) (i : Instr) : Except RefuseReason Instr :=
  if cmdOpnd cmd = 0 then .ok i else .error .reservedEncoding

/-- The decoder of R91. -/
def decode (cmd : Word) : Except RefuseReason Instr :=
  if cmdZ0 cmd ≠ 0 then .error .reservedEncoding
  else match (cmdOp cmd).toNat with
    | 1 => .ok (.tick (cmdOpnd cmd).toNat)
    | 2 => decodeFormatN cmd .fproc
    | 3 => decodeFormatN cmd .freset
    | 4 => if cmdTop cmd = 0 then .ok (.resolve (cmdReq cmd) (cmdEn cmd)) else .error .reservedEncoding
    | 5 => decodeFormatN cmd .reset
    | _ => .error .reservedEncoding

/-- The encoder: the fields of R86-R90, the operand in the high bits. -/
def encode : Instr → Word
  | .tick n         => BitVec.ofNat 24 n ++ 0x0#4 ++ 0x1#4
  | .fproc          => 0x000000#24 ++ 0x0#4 ++ 0x2#4
  | .freset         => 0x000000#24 ++ 0x0#4 ++ 0x3#4
  | .resolve req en => 0x00#8 ++ en ++ req ++ 0x0#4 ++ 0x4#4
  | .reset          => 0x000000#24 ++ 0x0#4 ++ 0x5#4

/-- One row of spec/opcode_table.json: a word belongs to the row when `word & mask = pattern`. -/
structure OpcodeRow where
  mask    : Word
  pattern : Word
deriving DecidableEq, Repr

/-- The word matches the row. -/
def rowMatches (r : OpcodeRow) (w : Word) : Bool := w &&& r.mask == r.pattern

/-- The row of each command (R88, R89, R90). -/
def opcodeRow : Instr → OpcodeRow
  | .tick _      => ⟨0x000000FF, 0x00000001⟩
  | .fproc       => ⟨0xFFFFFFFF, 0x00000002⟩
  | .freset      => ⟨0xFFFFFFFF, 0x00000003⟩
  | .resolve _ _ => ⟨0xFF0000FF, 0x00000004⟩
  | .reset       => ⟨0xFFFFFFFF, 0x00000005⟩

/-- The five rows of the table, in its order. -/
def opcodeTable : List OpcodeRow :=
  [opcodeRow (.tick 0), opcodeRow .fproc, opcodeRow .freset, opcodeRow (.resolve 0 0), opcodeRow .reset]

/-- The command word a table row's bits stand for: `w` on the row's `nbits` bits, every bit above them 0. -/
def tableWord (nbits w : Nat) : Word := BitVec.ofNat 32 (w % 2 ^ nbits)

/-- What the decoder reads from a table row's word; a command is one 32-bit word (R85), so a longer one is none. -/
def decodeTableWord (nbits w : Nat) : Option Instr :=
  if w % 2 ^ nbits < 2 ^ 32 then (decode (tableWord nbits w)).toOption else none

end Sys2Proof
end

