-- ==== Sys2Proof/Machine/State.lean ====
section
/-! DEFINITION. The state as plain data: the block's own record S (R22), the memory subsystem's bytes (R40, R60),
the command port (R85, R95), the event history (R84), the collaborators' answers (R14) and the parameters (R8);
the two ways a step can stop; and the state after power-on (R52, R53, R201). -/

namespace Sys2Proof.Machine

/-- The four modes (R23). The enumeration is closed, so no value stands outside it (R123). -/
inductive Mode where
  | hblank | vblank | oamSearch | pixelTransfer
deriving DecidableEq, Repr

/-- The four Fetcher states (R30), closed likewise. -/
inductive FetchState where
  | readTileNum | readData0 | readData1 | transferReady
deriving DecidableEq, Repr

/-- The Screen Cursor (R25-R28). The frame dimensions are parameters (R29). -/
structure Cursor where
  col        : Nat
  row        : Nat
  frameReady : Bool
deriving DecidableEq, Repr

/-- The Tile Fetcher (R30-R35). In the three data fields `none` is the spec's ⊥, "no value" (R12, R52). -/
structure Fetcher where
  state     : FetchState
  tileX     : Nat
  acc       : Nat
  tileIndex : Option TileIndex
  tile      : Option Tile
  pixRow    : Option (List Pixel)
deriving DecidableEq, Repr

/-- A Fetcher field that may have no value: what FLT_UNWRITTEN records (R181, R183). -/
inductive DataField where
  | tileIndex | tile | pixRow
deriving DecidableEq, Repr

/-- A field with a closed encoding: what FLT_BAD_STATE records (R181, R184). -/
inductive CodedField where
  | mode | fetchState
deriving DecidableEq, Repr

/-- The model faults of R181, each with the information it records. -/
inductive FaultCode where
  /-- FLT_PIPE_ZERO_COST (R182): `Pipe.process` answered 0; the TICK operand and the remaining budget.
  Safe: the source's hardware hangs there. -/
  | pipeZeroCost (n : Nat) (rem : Int)
  /-- FLT_UNWRITTEN (R183): a read of a field that has no value. Safe. -/
  | unwritten (field : DataField)
  /-- FLT_BAD_STATE (R184): a value outside its encoding. No definition raises it: both enumerations are closed. -/
  | badState (field : CodedField) (value : Nat)
deriving DecidableEq, Repr

/-- One recorded memory access or collaborator call (R84), with its arguments and its answer. -/
inductive Event where
  | memRead (addr : Nat) (v : Byte)
  | memWrite (addr : Nat) (v : Byte)
  /-- `Sprites.findVisible(row, h)` (R75): the contract gives it no answer. -/
  | findVisible (row h : Nat)
  | mapBase (answer : Nat)
  | tileNumberAt (addr : Nat) (answer : TileIndex)
  | tileFor (index : TileIndex) (answer : Tile)
  | rowPixels (tile : Tile) (r : Nat) (answer : List Pixel)
  | pipeProcess (cur : Cursor) (answer : PipeAnswer)
  | pipeIdle (answer : Bool)
  | pipeLoad (row : List Pixel)
  | pipeReset
deriving DecidableEq, Repr

/-- What an agent outside the block does at a command boundary (R68, R82, R83). -/
inductive HostMove where
  /-- The host presents a command word (R85). -/
  | command (w : Word)
  /-- An agent writes a register, with any value (R48). -/
  | writeReg (r : Reg) (v : Byte)
  /-- An agent reads a register; a read changes nothing (R65). -/
  | readReg (r : Reg)
  /-- The presentation layer sets `cur.frameReady` to false (R82). -/
  | clearFrameReady
deriving DecidableEq, Repr

/-- The answers of one collaborator (R14): the answers it is known to give next, oldest first, and how many it has
given. Past the known ones each answer is a free value of Config (notes/assumptions/3.md). -/
structure AnswerFeed (α : Type) where
  script : List α
  taken  : Nat
deriving DecidableEq, Repr

/-- The collaborators' answers, one feed per call that answers (R76-R79). -/
structure Collaborators where
  mapBase    : AnswerFeed Nat
  tileNumber : AnswerFeed TileIndex
  tile       : AnswerFeed Tile
  rowPixels  : AnswerFeed (List Pixel)
  pipe       : AnswerFeed PipeAnswer
  pipeIdle   : AnswerFeed Bool
deriving DecidableEq, Repr

/-- The memory subsystem's bytes: addresses strictly rising, no entry equal to what an unlisted address reads as. -/
abbrev Memory := List Host.Cell

structure State where
  /-- `mode` (R23). -/
  mode      : Mode
  /-- `cyc`, the Cycle Budget Counter (R24). -/
  cyc       : Nat
  /-- `cur`, the Screen Cursor (R25). -/
  cur       : Cursor
  /-- `f`, the Tile Fetcher (R30-R35). -/
  f         : Fetcher
  /-- `fault` (R181): the first fault, if any. -/
  fault     : Option FaultCode
  /-- `refused` (R185). -/
  refused   : Bool
  /-- The byte space of R60, the seven registers of R40 in it. -/
  mem       : Memory
  /-- The event history, oldest first (R84). -/
  history   : List Event
  /-- The response words the command port has driven, oldest first (R95). -/
  responses : List Word
  /-- What the outside will do at the coming command boundaries, next first (R68, R83, R85). -/
  port      : List HostMove
  /-- The collaborators' answers (R14). -/
  collab    : Collaborators
  /-- The parameters (R8); no step changes them. -/
  cfg       : Config
deriving DecidableEq, Repr

/-- Why the block takes no further step after a fault (R186). -/
inductive Fault where
  /-- Raised by `step` and `exec` on a state whose `fault` field is set: the block is stuck (R186). Safe. -/
  | blockFaulted (code : FaultCode)
deriving DecidableEq, Repr

/-- Why the block takes no further step otherwise. -/
inductive Refusal where
  /-- An instruction that has no meaning in this model; no arm of `exec` answers it. Safe. -/
  | notModelled (mnemonic : String)
  /-- Raised by `step` and `exec` on a state whose `refused` mark is set: the block is stuck (R186). Safe. -/
  | blockRefused
deriving DecidableEq, Repr

/-- How a command's procedure ends before its outcome is settled (R15). -/
inductive Flow where
  /-- It goes on in this state. -/
  | go (s : State)
  /-- `raise Fault(code)`: the effects made so far stand (R182). -/
  | raise (code : FaultCode) (s : State)
  /-- `refuse(reason)`: the command has no meaning (R15, R185); the events recorded so far stand (R84). -/
  | refuse (reason : RefuseReason) (s : State)
deriving DecidableEq, Repr

/-! One named update per field. -/

def State.setMode (s : State) (m : Mode) : State := { s with mode := m }
def State.setCyc (s : State) (n : Nat) : State := { s with cyc := n }
def State.setCur (s : State) (c : Cursor) : State := { s with cur := c }
def State.setFetcher (s : State) (f : Fetcher) : State := { s with f := f }
def State.setFault (s : State) (c : FaultCode) : State := { s with fault := some c }
def State.setRefused (s : State) : State := { s with refused := true }
def State.setMem (s : State) (m : Memory) : State := { s with mem := m }
def State.log (s : State) (e : Event) : State := { s with history := s.history ++ [e] }
def State.respond (s : State) (w : Word) : State := { s with responses := s.responses ++ [w] }
def State.setPort (s : State) (p : List HostMove) : State := { s with port := p }
def State.setCollab (s : State) (c : Collaborators) : State := { s with collab := c }

/-- The Screen Cursor at reset (R52). -/
def Cursor.reset : Cursor := { col := 0, row := 0, frameReady := false }

/-- The Fetcher at reset (R52): the data fields have no value. -/
def Fetcher.reset : Fetcher :=
  { state := .readTileNum, tileX := 0, acc := 0, tileIndex := none, tile := none, pixRow := none }

/-- No answer known in advance, none given yet. -/
def AnswerFeed.fresh {α : Type} : AnswerFeed α := { script := [], taken := 0 }

/-- Every collaborator at the start of a run: all its answers are free. -/
def Collaborators.fresh : Collaborators :=
  { mapBase := .fresh, tileNumber := .fresh, tile := .fresh, rowPixels := .fresh, pipe := .fresh, pipeIdle := .fresh }

/-- The machine at power-on (R52, R201), with the default parameters (R8) and the registers at the bytes that
notes/assumptions/2.md names (R53 gives them none). -/
def State.reset : State :=
  { mode := .oamSearch, cyc := 0, cur := .reset, f := .reset, fault := none, refused := false
    mem := [], history := [], responses := [], port := [], collab := .fresh, cfg := defaultConfig }

end Sys2Proof.Machine
end

