-- ==== Sys2Proof/Machine/Ops.lean ====
section
/-! DEFINITION. The shared operations: stopping and refusing (R15, R185, R186), memory (R13, R60-R73), the
collaborators' answers and calls (R14, R75-R81), the host's moves (R68, R82, R83) and the launch (R201). -/

namespace Sys2Proof.Machine

/-! ## How a command ends -/

/-- Sequencing: the next procedure runs only where this one goes on (R16). -/
def Flow.andThen : Flow → (State → Flow) → Flow
  | .go s,      k => k s
  | .raise c s, _ => .raise c s
  | .refuse r s, _ => .refuse r s

/-- "It sets `S.refused <- true` and changes nothing else" (R185): `s` has the record S from before the refused
input. -/
def refuseInput (s : State) : State := s.setRefused

/-- `s` with the block's record S (R22) as it stands in `pre`. -/
def restoreRecord (pre s : State) : State :=
  { s with mode := pre.mode, cyc := pre.cyc, cur := pre.cur, f := pre.f, fault := pre.fault, refused := pre.refused }

/-- The state a command that began in `pre` leaves. A fault is recorded over the effects made before it (R181,
R182). A refusal changes nothing of S but the mark (R185, notes/assumptions/8.md); what is outside S stands: every
access and call made is recorded (R84), and the answers taken are taken. -/
def settle (pre : State) : Flow → State
  | .go s      => s
  | .raise c s => s.setFault c
  | .refuse _ s => refuseInput (restoreRecord pre s)

/-- A block with a fault or a refusal recorded takes no further step (R186). -/
def whenRunning (s : State) (k : State → Host.Outcome State Fault Refusal) : Host.Outcome State Fault Refusal :=
  match s.fault with
  | some c => .fault (.blockFaulted c)
  | none => if s.refused then .refused .blockRefused else k s

/-- One command, as one atomic step of the block (R66). -/
def runCommand (s : State) (body : State → Flow) : Host.Outcome State Fault Refusal :=
  whenRunning s fun s => .next (settle s (body s))

/-! ## Memory -/

/-- The byte at an address. -/
def Memory.read : Memory → Nat → Byte
  | [], _ => Memory.initByte
  | (a, v) :: m, x => if a = x then v else Memory.read m x

/-- Store a byte, in the canonical form: storing what an unlisted address reads as leaves no entry. -/
def Memory.write : Memory → Nat → Byte → Memory
  | [], x, v => if v = Memory.initByte then [] else [(x, v)]
  | (a, w) :: m, x, v =>
    if x < a then (if v = Memory.initByte then (a, w) :: m else (x, v) :: (a, w) :: m)
    else if x = a then (if v = Memory.initByte then m else (x, v) :: m)
    else (a, w) :: Memory.write m x v

/-- The canonical form: addresses strictly rising, no entry equal to what an unlisted address reads as. -/
def Memory.wf : Memory → Bool
  | [] => true
  | (a, v) :: m => decide (v ≠ Memory.initByte) && m.all (fun c => decide (a < c.1)) && Memory.wf m

/-- `MemRead(addr, 1)` (R13); a read has no side effect on memory (R65). -/
def memRead (a : Nat) (s : State) : Byte × State :=
  (Memory.read s.mem a, s.log (.memRead a (Memory.read s.mem a)))

/-- `MemWrite(addr, 1, v)` (R13): a write has exactly the effect of storing the byte (R65). -/
def memWrite (a : Nat) (v : Byte) (s : State) : State :=
  (s.setMem (Memory.write s.mem a v)).log (.memWrite a v)

/-- `MemRMW_Set(addr, mask)` = `MemWrite(addr, 1, MemRead(addr, 1) | mask)` (R13, R71). -/
def memRmwSet (a : Nat) (mask : Byte) (s : State) : State :=
  let (v, s) := memRead a s
  memWrite a (v ||| mask) s

/-! ## The collaborators' answers -/

/-- The answer a collaborator gives next: a known one, or a free value. -/
def AnswerFeed.answer {α : Type} (free : Nat → α) (d : AnswerFeed α) : α :=
  match d.script with
  | a :: _ => a
  | []     => free d.taken

/-- One answer given. -/
def AnswerFeed.advance {α : Type} (d : AnswerFeed α) : AnswerFeed α :=
  { script := d.script.tail, taken := d.taken + 1 }

/-- The answer it gives `k` answers from now. -/
def AnswerFeed.upcoming {α : Type} (free : Nat → α) (d : AnswerFeed α) (k : Nat) : α :=
  (d.script[k]?).getD (free (d.taken + k))

/-! ## The collaborator calls -/

/-- `Sprites.findVisible(row, h)` (R75): the block keeps no result from it. -/
def spritesFindVisible (row h : Nat) (s : State) : State := s.log (.findVisible row h)

/-- `Map.base()` (R76). -/
def mapBase (s : State) : Nat × State :=
  let a := s.collab.mapBase.answer Config.freeMapBase
  (a, (s.setCollab { s.collab with mapBase := s.collab.mapBase.advance }).log (.mapBase a))

/-- `Map.tileNumberAt(a)` (R76). -/
def mapTileNumberAt (addr : Nat) (s : State) : TileIndex × State :=
  let i := s.collab.tileNumber.answer Config.freeTileNumber
  (i, (s.setCollab { s.collab with tileNumber := s.collab.tileNumber.advance }).log (.tileNumberAt addr i))

/-- `Map.tileFor(i)` (R76). -/
def mapTileFor (i : TileIndex) (s : State) : Tile × State :=
  let t := s.collab.tile.answer Config.freeTile
  (t, (s.setCollab { s.collab with tile := s.collab.tile.advance }).log (.tileFor i t))

/-- `Tile.rowPixels(t, r)` (R77). -/
def tileRowPixelsCall (t : Tile) (r : Nat) (s : State) : List Pixel × State :=
  let p := s.collab.rowPixels.answer Config.freeRowPixels
  (p, (s.setCollab { s.collab with rowPixels := s.collab.rowPixels.advance }).log (.rowPixels t r p))

/-- The column a `Pipe.process` call leaves in the cursor (R78, D45): the pipeline may write it, and nothing else. -/
def colAfter (cur : Cursor) (a : PipeAnswer) : Cursor := { cur with col := a.newCol.getD cur.col }

/-- `Pipe.process(cur)` (R78). -/
def pipeProcess (s : State) : PipeAnswer × State :=
  let a := s.collab.pipe.answer Config.freePipeAnswer
  (a, ((s.setCollab { s.collab with pipe := s.collab.pipe.advance }).log (.pipeProcess s.cur a)).setCur
        (colAfter s.cur a))

/-- `Pipe.idle()` (R79). -/
def pipeIdle (s : State) : Bool × State :=
  let b := s.collab.pipeIdle.answer Config.freePipeIdle
  (b, (s.setCollab { s.collab with pipeIdle := s.collab.pipeIdle.advance }).log (.pipeIdle b))

/-- `Pipe.load(p)` (R80). -/
def pipeLoad (p : List Pixel) (s : State) : State := s.log (.pipeLoad p)

/-- `Pipe.reset()` (R81). -/
def pipeReset (s : State) : State := s.log .pipeReset

/-! ## Writes to the Screen Cursor -/

def setRow (r : Nat) (s : State) : State := s.setCur { s.cur with row := r }
def setCol (c : Nat) (s : State) : State := s.setCur { s.cur with col := c }
def setFrameReady (b : Bool) (s : State) : State := s.setCur { s.cur with frameReady := b }

/-! ## The outside: launch, and moves between commands -/

/-- INIT_REGS: the seven registers' bytes at the start of a run, a launch input under no law (R53, D8). -/
structure InitRegs where
  lcdc    : Byte
  stat    : Byte
  scy     : Byte
  scx     : Byte
  ly      : Byte
  iflag   : Byte
  ienable : Byte
deriving DecidableEq, Repr

/-- Memory holding INIT_REGS at the configuration's addresses. -/
def initMemory (c : Config) (r : InitRegs) : Memory :=
  [(Reg.lcdc, r.lcdc), (.stat, r.stat), (.scy, r.scy), (.scx, r.scx), (.ly, r.ly), (.iflag, r.iflag),
   (.ienable, r.ienable)].foldl (fun m x => Memory.write m (regAddr c x.1) x.2) []

/-- Power-on with the launch inputs chosen: parameters, INIT_REGS, the host's moves, and the collaborators. -/
def launch (c : Config) (r : InitRegs) (moves : List HostMove) (env : Collaborators) : State :=
  { State.reset with cfg := c, mem := initMemory c r, port := moves, collab := env }

/-- A register's byte as any agent reads it between commands (R48, R68). -/
def readReg (s : State) (r : Reg) : Byte := Memory.read s.mem (regAddr s.cfg r)

/-- A move that is not a command, at a command boundary (R68, R82, R83). It is no event of the block (R84). -/
def applyMove : HostMove → State → State
  | .command _,       s => s
  | .writeReg r v,    s => s.setMem (Memory.write s.mem (regAddr s.cfg r) v)
  | .readReg _,       s => s
  | .clearFrameReady, s => setFrameReady false s

end Sys2Proof.Machine
end

