-- ==== Sys2Proof/Machine/Operands.lean ====
section
/-! DEFINITION. Operands and encodings: the tile-map address (R142), the sprite height (R111), the encodings of
internal state (R96-R98) and the response word (R95). -/

namespace Sys2Proof.Machine

/-- D19's test instance of TILE_MAP_ADDR: a 32-column tile map. -/
def d19TileMapAddr (base scx scy row x : Nat) : Nat :=
  base + 32 * (((scy + row) % 256) / 8) + ((scx + x) % 256) / 8

/-- TILE_MAP_ADDR(base, scx', scy', row, x) (R8, R142). -/
def tileMapAddr (c : Config) (base scx scy row x : Nat) : Nat :=
  match c.tileMap with
  | .openParameter   => Config.openTileMapAddr base scx scy row x
  | .d19TestInstance => d19TileMapAddr base scx scy row x

/-- The address READ_TILE_NUM looks up for a map base: SCX mod SCREEN_W, SCY mod SCREEN_H, the scanline row and the
tile cursor BEFORE its increment (R142, D16). -/
def fetchAddr (s : State) (scx scy : Byte) (base : Nat) : Nat :=
  tileMapAddr s.cfg base (scx.toNat % s.cfg.screenW) (scy.toNat % s.cfg.screenH) s.cur.row s.f.tileX

/-- The row inside the tile: `row mod 8` alone, without SCY (R144, R151). -/
def rowInTile (s : State) : Nat := s.cur.row % tileRowPixels

/-- LY's byte: the row mod 256 (R43, R119). -/
def lyByte (s : State) : Byte := BitVec.ofNat 8 s.cur.row

/-- LCDC bit 2 selects sprite height 8 or 16 (R111). -/
def spriteHeight (lcdc : Byte) : Nat := if lcdc.getLsbD spriteSizeBit then spriteHLarge else spriteHSmall

/-- The budget of a mode (R7). -/
def modeBudget : Mode → Nat
  | .hblank        => hblankBudget
  | .vblank        => vblankLineBudget
  | .oamSearch     => oamBudget
  | .pixelTransfer => ptBudget

/-- The 2-bit encoding of `mode` (R96); no rule exposes it. -/
def modeCode : Mode → BitVec 2
  | .hblank => 0 | .vblank => 1 | .oamSearch => 2 | .pixelTransfer => 3

/-- The mode a 2-bit value encodes (R96): every value is used. -/
def modeOfCode (c : BitVec 2) : Mode :=
  match c.toNat with
  | 0 => .hblank | 1 => .vblank | 2 => .oamSearch | _ => .pixelTransfer

/-- The 2-bit encoding of `f.state` (R97); no rule exposes it. -/
def fetchStateCode : FetchState → BitVec 2
  | .readTileNum => 0 | .readData0 => 1 | .readData1 => 2 | .transferReady => 3

/-- The Fetcher state a 2-bit value encodes (R97). -/
def fetchStateOfCode (c : BitVec 2) : FetchState :=
  match c.toNat with
  | 0 => .readTileNum | 1 => .readData0 | 2 => .readData1 | _ => .transferReady

/-- The fault codes' numbers (R181, D24). -/
def faultNumber : FaultCode → Nat
  | .pipeZeroCost _ _ => 1 | .unwritten _ => 2 | .badState _ _ => 3

/-- The kinds in priority order, highest first (R165, R168). -/
def kindsByPriority : List IrqKind := [.vblank, .lcdcStat, .timer, .serial, .joypad]

/-- The 3-bit kind codes (R98). -/
def kindCode : IrqKind → BitVec 3
  | .vblank => 0 | .lcdcStat => 1 | .timer => 2 | .serial => 3 | .joypad => 4

/-- The response word (R95), from the high bits: vector 31:16, bit 15:8, zero 7:4, kind 3:1, valid 0. -/
def responseWord (t : IrqTable) : Option IrqKind → Word
  | none   => 0x00000000
  | some k => (irqDescriptor t k).vector ++ BitVec.ofNat 8 (irqDescriptor t k).bit.val ++ 0x0#4 ++ kindCode k ++ 0b1#1

end Sys2Proof.Machine
end

