-- ==== Sys2Proof/Machine/Flags.lean ====
section
/-! DEFINITION. The flags (R50): bit helpers (R11), the latched raise of an interrupt request (R118), and which
interrupts are pending (R167). The block has no arithmetic condition codes. -/

namespace Sys2Proof.Machine

/-- `TestBit(b, i)` (R11). -/
def testBit (b : Byte) (i : Fin 8) : Bool := b.getLsbD i.val
/-- `SetBit(b, i) = b | (1 << i)` (R11). -/
def setBit (b : Byte) (i : Fin 8) : Byte := b ||| (1#8 <<< i.val)
/-- `TestMask(b, m)` (R11). -/
def testMask (b m : Byte) : Bool := decide (b &&& m ≠ 0)
/-- `SetMask(b, m)` (R11). -/
def setMask (b m : Byte) : Byte := b ||| m
/-- The mask `1 << b` of one bit (R118). -/
def bitMask (b : Fin 8) : Byte := 1#8 <<< b.val

/-- `RaiseLatched(testMask, setMask, b)` (R118): nothing when the latch is set; otherwise the IF bit, then the
STAT latch, each by read-modify-write. -/
def raiseLatched (test set : Byte) (b : Fin 8) (s : State) : State :=
  let (stat, s) := memRead s.cfg.addrStat s
  if testMask stat test then s
  else memRmwSet s.cfg.addrStat set (memRmwSet s.cfg.addrIf (bitMask b) s)

/-- Kind `k` is pending: its request bit and its enable bit are both set (R167). -/
def pending (t : IrqTable) (req en : Byte) (k : IrqKind) : Bool :=
  testBit req (irqDescriptor t k).bit && testBit en (irqDescriptor t k).bit

/-- The first pending kind of a list (R168). -/
def firstPending (t : IrqTable) (req en : Byte) : List IrqKind → Option IrqKind
  | []      => none
  | k :: ks => if pending t req en k then some k else firstPending t req en ks

end Sys2Proof.Machine
end

