-- ==== Sys2Proof/Machine/TileFetcher.lean ====
section
/-! DEFINITION. The Tile Fetcher (spec/42_tile_fetcher.md): FPROC and FRESET, the fetch step with its frequency
divider, and the restart after a row hand-off. -/

namespace Sys2Proof.Machine

/-- FetcherReset (R147): the data fields keep their values. -/
def fetcherReset (s : State) : State := s.setFetcher { s.f with state := .readTileNum, tileX := 0, acc := 0 }

/-- FetcherRestart (R152): back to READ_TILE_NUM, the tile cursor and the data fields kept. -/
def fetcherRestart (s : State) : State := s.setFetcher { s.f with state := .readTileNum, acc := 0 }

/-- `f.state <- x`. -/
def setFetchState (x : FetchState) (s : State) : State := s.setFetcher { s.f with state := x }

/-- `f.acc <- n`. -/
def setAcc (n : Nat) (s : State) : State := s.setFetcher { s.f with acc := n }

/-- `f.tileIndex <- i` and the cursor's advance are READ_TILE_NUM's writes (R142). -/
def setTileIndex (i : TileIndex) (s : State) : State := s.setFetcher { s.f with tileIndex := some i }

/-- `f.tileX <- f.tileX + TILE_CURSOR_STEP` (R142). -/
def advanceTileX (s : State) : State := s.setFetcher { s.f with tileX := s.f.tileX + tileCursorStep }

/-- ReadTileNum (R142): SCX before SCY, the map base, the address from the cursor before its increment, the
increment, then the tile number. -/
def readTileNum (s : State) : State :=
  let (scx, s) := memRead s.cfg.addrScx s
  let (scy, s) := memRead s.cfg.addrScy s
  let (base, s) := mapBase s
  let addr := fetchAddr s scx scy base
  let s := advanceTileX s
  let (i, s) := mapTileNumberAt addr s
  setTileIndex i s

/-- ReadData0 (R143); a read of an index that has no value is FLT_UNWRITTEN (R183). -/
def readData0 (s : State) : Flow :=
  match s.f.tileIndex with
  | none => .raise (.unwritten .tileIndex) s
  | some i =>
    let (t, s) := mapTileFor i s
    .go (s.setFetcher { s.f with tile := some t })

/-- ReadData1 (R144): the row `cur.row mod 8` of the tile; an answer longer than 8 is refused
(R77), its call recorded (R84). -/
def readData1 (s : State) : Flow :=
  match s.f.tile with
  | none => .raise (.unwritten .tile) s
  | some t =>
    let (p, s) := tileRowPixelsCall t (rowInTile s) s
    if p.length > tileRowPixels then .refuse .collaboratorAnswer s
    else .go (s.setFetcher { s.f with pixRow := some p })

/-- The micro-step's work, done when the divider fires (R141). At TRANSFER_READY there is none (R145). -/
def fetcherWork (s : State) : Flow :=
  match s.f.state with
  | .readTileNum   => .go (setFetchState .readData0 (readTileNum s))
  | .readData0     => (readData0 s).andThen fun s => .go (setFetchState .readData1 s)
  | .readData1     => (readData1 s).andThen fun s => .go (setFetchState .transferReady s)
  | .transferReady => .go s

/-- FetcherStep with its frequency divider (R141): the work comes on the FETCHER_FREQUENCY-th step (D15), and
nothing at all happens at TRANSFER_READY (R145). -/
def fetcherStep (s : State) : Flow :=
  if s.f.state = .transferReady then .go s
  else if s.f.acc + 1 < fetcherFrequency then .go (setAcc (s.f.acc + 1) s)
  else fetcherWork (setAcc 0 s)

/-- FPROC (R140): the step alone; no hand-off follows it (R150). -/
def execFproc (s : State) : Host.Outcome State Fault Refusal := runCommand s fetcherStep

/-- FRESET (R146). -/
def execFreset (s : State) : Host.Outcome State Fault Refusal := runCommand s fun s => .go (fetcherReset s)

end Sys2Proof.Machine
end

