-- ==== Sys2Proof/Machine/BlockReset.lean ====
section
/-! DEFINITION. RESET (R200). -/

namespace Sys2Proof.Machine

/-- RESET's statements in their order (R200): no memory-mapped register is written. -/
def blockReset (s : State) : State :=
  let s := s.setMode .oamSearch
  let s := s.setCyc 0
  let s := s.setCur .reset
  let s := fetcherReset s
  let s := s.setFetcher { s.f with tileIndex := none, tile := none, pixRow := none }
  pipeReset s

/-- RESET (R200). -/
def execReset (s : State) : Host.Outcome State Fault Refusal := runCommand s fun s => .go (blockReset s)

end Sys2Proof.Machine
end

