-- ==== Sys2Proof/Machine/InterruptResolver.lean ====
section
/-! DEFINITION. The Interrupt Resolver (spec/43_interrupt_resolver.md): RESOLVE. It holds no state. -/

namespace Sys2Proof.Machine

/-- The kind RESOLVE selects (R166, R168), if any. -/
def resolveKind (t : IrqTable) (req en : Byte) : Option IrqKind := firstPending t req en kindsByPriority

/-- RESOLVE (R166): it drives the response word and does nothing else (R170); the masks are operands, never read
from memory (R173). -/
def execResolve (req en : Byte) (s : State) : Host.Outcome State Fault Refusal :=
  runCommand s fun s => .go (s.respond (responseWord s.cfg.irq (resolveKind s.cfg.irq req en)))

end Sys2Proof.Machine
end

