-- ==== Sys2Proof/Machine/ModeController.lean ====
section
/-! DEFINITION. The Mode Controller (spec/41_mode_controller.md): TICK, its four arms, and the scanline and status
register writes at mode boundaries. -/

namespace Sys2Proof.Machine

/-- OamArm (R110): at the exit, LCDC is read, the sprite query made, and PIXEL_TRANSFER entered. -/
def oamArm (s : State) : State :=
  if s.cyc < oamBudget then s
  else
    let (lcdc, s) := memRead s.cfg.addrLcdc s
    let s := spritesFindVisible s.cur.row (spriteHeight lcdc) s
    let s := s.setCyc (s.cyc - oamBudget)
    s.setMode .pixelTransfer

/-- Step (c) of the inner loop (R115): only at TRANSFER_READY is the pipeline asked whether it is idle, and only an
idle one is handed the row, after which the Fetcher restarts. -/
def handOff (s : State) : Flow :=
  if s.f.state = .transferReady then
    let (idle, s) := pipeIdle s
    if idle then
      match s.f.pixRow with
      | none   => .raise (.unwritten .pixRow) s
      | some p => .go (fetcherRestart (pipeLoad p s))
    else .go s
  else .go s

/-- The inner loop (R112, R113) of `tick n`, with `rem` of its budget left. Each turn costs at least 1 or faults
(R114), so `n` turns are always enough: `fuel` is spent no faster than `rem` (R214). -/
def innerLoop (n : Nat) : Nat → Int → State → Flow
  | 0, _, s => .go s
  | fuel + 1, rem, s =>
    if 0 < rem then
      let (a, s) := pipeProcess s
      if a.cost = 0 then .raise (.pipeZeroCost n rem) s
      else (fetcherStep s).andThen fun s => (handOff s).andThen fun s => innerLoop n fuel (rem - a.cost) s
    else .go s

/-- The PIXEL_TRANSFER exit (R116): the test is on the accumulated `cyc`, not on the pipeline's costs (R129). -/
def ptExit (s : State) : State :=
  if s.cyc < ptBudget then s
  else
    let s := pipeReset (fetcherReset s)
    let s := s.setCyc (s.cyc - ptBudget)
    s.setMode .hblank

/-- PtArm (R112). -/
def ptArm (n : Nat) (s : State) : Flow := (innerLoop n n n s).andThen fun s => .go (ptExit s)

/-- HblankArm (R117): the latched raise, LY from the row before its increment, the row, the column, and the next
mode (R119, R120). -/
def hblankArm (s : State) : State :=
  if s.cyc < hblankBudget then s
  else
    let s := raiseLatched s.cfg.statM0Test s.cfg.statM0Set s.cfg.irq.lcdcStat.bit s
    let s := memWrite s.cfg.addrLy (lyByte s) s
    let s := setCol 0 (setRow (s.cur.row + 1) s)
    let s := s.setCyc (s.cyc - hblankBudget)
    s.setMode (if s.cur.row ≥ s.cfg.visibleRows then .vblank else .oamSearch)

/-- The frame wrap (R122): frame-ready, row 0, OAM_SEARCH, once the row exceeds VISIBLE_ROWS + 9. -/
def frameWrap (s : State) : State :=
  if s.cur.row > s.cfg.visibleRows + vblankLines - 1 then (setRow 0 (setFrameReady true s)).setMode .oamSearch
  else s

/-- VblankArm (R121): one VBLANK scanline ends. -/
def vblankArm (s : State) : State :=
  if s.cyc < vblankLineBudget then s
  else
    let s := raiseLatched s.cfg.statM1Test s.cfg.statM1Set s.cfg.irq.vblank.bit s
    let s := memWrite s.cfg.addrLy (lyByte s) s
    let s := setRow (s.cur.row + 1) s
    let s := s.setCyc (s.cyc - vblankLineBudget)
    frameWrap s

/-- The arm of the mode that is current at the start of the command, exactly once (R107, R123). -/
def modeArm (n : Nat) (s : State) : Flow :=
  match s.mode with
  | .oamSearch     => .go (oamArm s)
  | .pixelTransfer => ptArm n s
  | .hblank        => .go (hblankArm s)
  | .vblank        => .go (vblankArm s)

/-- TICK (R105): accumulate (R106), then one arm. -/
def execTick (n : Nat) (s : State) : Host.Outcome State Fault Refusal :=
  runCommand s fun s => modeArm n (s.setCyc (s.cyc + n))

end Sys2Proof.Machine
end

