-- ==== Sys2Proof/Machine/Dispatch.lean ====
section
/-! DEFINITION. The meaning of each command, one arm per constructor of Instr. -/

namespace Sys2Proof.Machine

def exec (i : Instr) (s : State) : Host.Outcome State Fault Refusal :=
  match i with
  | .tick n => Sys2Proof.Machine.execTick n s
  | .fproc => Sys2Proof.Machine.execFproc s
  | .freset => Sys2Proof.Machine.execFreset s
  | .resolve req en => Sys2Proof.Machine.execResolve req en s
  | .reset => Sys2Proof.Machine.execReset s

end Sys2Proof.Machine
end

