-- ==== Sys2Proof/Machine/CommandPort.lean ====
section
/-! DEFINITION. The command port (R85): what a presented word does, and what the next move at the port does. -/

namespace Sys2Proof.Machine

/-- What a presented word does (R91, R92): a command runs; any other word sets the refused mark alone. -/
def stepWord (w : Word) (s : State) : Host.Outcome State Fault Refusal :=
  match decode w with
  | .ok i    => exec i s
  | .error _ => .next (refuseInput s)

/-- The first move leaves the port and takes place: a command word runs as one atomic step (R66, R85), any other move
changes what it changes between commands (R68). With nothing at the port the block holds its state (R227). -/
def stepPort (s : State) : Host.Outcome State Fault Refusal :=
  match s.port with
  | []                       => .next s
  | .command w :: rest       => stepWord w (s.setPort rest)
  | .writeReg r v :: rest    => .next (applyMove (.writeReg r v) (s.setPort rest))
  | .readReg r :: rest       => .next (applyMove (.readReg r) (s.setPort rest))
  | .clearFrameReady :: rest => .next (applyMove .clearFrameReady (s.setPort rest))

/-- A command word presented first at the port. -/
def presentWord (w : Word) (s : State) : State := s.setPort (.command w :: s.port)

end Sys2Proof.Machine
end

