-- ==== Sys2Proof/Machine/Step.lean ====
section
/-! DEFINITION. One step of the machine. -/

namespace Sys2Proof.Machine

/-- One step: the next move at the command port, unless the block has stopped (R186). -/
def step (s : State) : Host.Outcome State Fault Refusal := whenRunning s stepPort

/-- `s` with a table row's word presented first at the port, so that the next step runs it. -/
def State.withFetchWord (s : State) (nbits w : Nat) : State := presentWord (tableWord nbits w) s

end Sys2Proof.Machine
end

