-- ==== Sys2Proof/Machine/Assembler.lean ====
section
/-! DEFINITION. The text syntax of commands (R99-R101): one command a line, read from a list of characters. -/

namespace Sys2Proof.Machine

/-- `;` starts a comment that runs to the end of the line (R99). -/
def stripComment : List Char → List Char
  | []      => []
  | c :: cs => if c = ';' then [] else c :: stripComment cs

/-- The word read so far, if it is not empty. -/
def flushWord (word : List Char) : List (List Char) := if word = [] then [] else [word]

/-- The words of a line; blanks part them and each comma is a word of its own. -/
def splitWords : List Char → List Char → List (List Char)
  | [], word => flushWord word
  | c :: cs, word =>
    if c = ' ' ∨ c = '\t' then flushWord word ++ splitWords cs []
    else if c = ',' then flushWord word ++ [','] :: splitWords cs []
    else splitWords cs (word ++ [c])

/-- The value of a decimal digit. -/
def decimalDigit (c : Char) : Option Nat :=
  if 48 ≤ c.toNat ∧ c.toNat ≤ 57 then some (c.toNat - 48) else none

/-- The value of a hexadecimal digit, of either case (notes/assumptions/12.md). -/
def hexDigit (c : Char) : Option Nat :=
  if 97 ≤ c.toNat ∧ c.toNat ≤ 102 then some (c.toNat - 87)
  else if 65 ≤ c.toNat ∧ c.toNat ≤ 70 then some (c.toNat - 55)
  else decimalDigit c

/-- The number a list of digits spells, most significant first, after the digits that spell `acc`. -/
def readDigits (base : Nat) (digit : Char → Option Nat) : List Char → Nat → Option Nat
  | [], acc => some acc
  | c :: cs, acc =>
    match digit c with
    | some d => readDigits base digit cs (acc * base + d)
    | none   => none

/-- A numeric operand: decimal, or hexadecimal with a `0x` prefix (R100). -/
def readNumber : List Char → Option Nat
  | []                    => none
  | ['0', 'x']            => none
  | '0' :: 'x' :: c :: cs => readDigits 16 hexDigit (c :: cs) 0
  | c :: cs               => readDigits 10 decimalDigit (c :: cs) 0

/-- An operand in the range `< bound`; out of range it is refused, never truncated (R100). -/
def readOperand (bound : Nat) (word : List Char) : Option Nat :=
  match readNumber word with
  | some v => if v < bound then some v else none
  | none   => none

/-- One command in its words (R99); mnemonics are lower case. -/
def readCommand : List (List Char) → Option Instr
  | [['f', 'p', 'r', 'o', 'c']]      => some .fproc
  | [['f', 'r', 'e', 's', 'e', 't']] => some .freset
  | [['r', 'e', 's', 'e', 't']]      => some .reset
  | [['t', 'i', 'c', 'k'], n]        => (readOperand (2 ^ 24) n).map .tick
  | [['r', 'e', 's', 'o', 'l', 'v', 'e'], a, [','], b] =>
    match readOperand (2 ^ 8) a, readOperand (2 ^ 8) b with
    | some req, some en => some (.resolve (BitVec.ofNat 8 req) (BitVec.ofNat 8 en))
    | _, _              => none
  | _ => none

/-- The commands of one line: none on a blank line, `k` of them after `repeat k` (R99), which has no encoding.
DESIGN CHOICE (notes/assumptions/12.md): the spec gives `k` no range and no number form; it is read as an operand is
(R100), and every count is taken, 0 included, which gives no word. -/
def readLine (line : List Char) : Option (List Instr) :=
  match splitWords (stripComment line) [] with
  | [] => some []
  | ['r', 'e', 'p', 'e', 'a', 't'] :: k :: command =>
    match readNumber k, readCommand command with
    | some k, some i => some (List.replicate k i)
    | _, _           => none
  | command => (readCommand command).map (fun i => [i])

/-- The words of one line (R101). -/
def assembleLine (line : List Char) : Option (List Word) := (readLine line).map (·.map encode)

end Sys2Proof.Machine
end

