-- ==== Sys2Proof/Safety.lean ====
section
/-! DEFINITION. The terms claims are stated in: running states, the invariant, what the collaborators owe, the
transition graph, runs of commands, and the controller's view of a state. -/

namespace Sys2Proof.Machine

/-- The state an outcome leads to, if it leads to one. -/
def nextState : Host.Outcome State Fault Refusal → Option State
  | .next s    => some s
  | .fault _   => none
  | .refused _ => none

/-- No fault and no refusal: "a claim about the block takes `no fault and no refusal` as a premise" (R186). -/
structure State.Running (s : State) : Prop where
  no_fault   : s.fault = none
  no_refusal : s.refused = false

/-- The Fetcher's fields agree with its state: the divider's count (R32), a data field written before the state that
reads it (R52), a row of at most 8 samples (R35), a cursor that moves by 8 (R31). -/
structure Fetcher.Inv (f : Fetcher) : Prop where
  acc_lt    : f.acc < fetcherFrequency
  acc_ready : f.state = .transferReady → f.acc = 0
  index_set : f.state = .readData0 → f.tileIndex ≠ none
  tile_set  : f.state = .readData1 → f.tile ≠ none
  row_set   : f.state = .transferReady → f.pixRow ≠ none
  row_short : ∀ p, f.pixRow = some p → p.length ≤ tileRowPixels
  cursor_by_8 : f.tileX % tileCursorStep = 0

/-- The row's range (R27): the ten VBLANK rows in VBLANK (R122), a visible row in every other mode (R120). -/
def RowInRange (c : Config) (m : Mode) (row : Nat) : Prop :=
  match m with
  | .vblank => c.visibleRows ≤ row ∧ row < c.visibleRows + vblankLines
  | _       => row < c.visibleRows

/-- The invariant of the machine. -/
structure State.Inv (s : State) : Prop where
  cfg_wf  : s.cfg.Wf
  mem_wf  : Memory.wf s.mem = true
  fetcher : s.f.Inv
  row     : RowInRange s.cfg s.mode s.cur.row

/-- `t` has what `s` has of everything the Fetcher and the pixel pipeline never write: all but the Fetcher, the
column, the event history, the collaborators' answers, and the fault and refusal marks. -/
structure SameController (s t : State) : Prop where
  mode       : t.mode = s.mode
  cyc        : t.cyc = s.cyc
  row        : t.cur.row = s.cur.row
  frameReady : t.cur.frameReady = s.cur.frameReady
  mem        : t.mem = s.mem
  responses  : t.responses = s.responses
  port       : t.port = s.port
  cfg        : t.cfg = s.cfg

/-- What the pipeline owes over its next `n` answers: every cost at least 1 (R78, R83, R204). -/
def PipeOwesCost (n : Nat) (s : State) : Prop :=
  ∀ k < n, 1 ≤ (s.collab.pipe.upcoming Config.freePipeAnswer k).cost

/-- What the tile decoder owes over its next `n` answers: rows of at most 8 samples (R77). -/
def RowsOweLength (n : Nat) (s : State) : Prop :=
  ∀ k < n, (s.collab.rowPixels.upcoming Config.freeRowPixels k).length ≤ tileRowPixels

/-- The transition graph of R124. -/
def modeEdge : Mode → Mode → Bool
  | .oamSearch, .pixelTransfer => true
  | .pixelTransfer, .hblank    => true
  | .hblank, .oamSearch        => true
  | .hblank, .vblank           => true
  | .vblank, .vblank           => true
  | .vblank, .oamSearch        => true
  | _, _                       => false

/-- `tick n` makes the current mode's exit: the budget is reached (R108). -/
def ExitDue (n : Nat) (s : State) : Prop := modeBudget s.mode ≤ s.cyc + n

/-- Commands one after another, stopping at the first that has no step. -/
def runCommands : List Instr → State → Host.Outcome State Fault Refusal
  | [], s      => .next s
  | i :: is, s =>
    match exec i s with
    | .next t    => runCommands is t
    | .fault e   => .fault e
    | .refused r => .refused r

/-- A sequence of TICKs with the given operands. -/
def ticks (ns : List Nat) : List Instr := ns.map .tick

/-- What the granularity law speaks of (R126): mode, counter, row, frame-ready, and the memory-mapped registers. -/
structure ControllerView where
  mode       : Mode
  cyc        : Nat
  row        : Nat
  frameReady : Bool
  mem        : Memory
deriving DecidableEq, Repr

/-- The controller's view of a state. -/
def State.view (s : State) : ControllerView :=
  { mode := s.mode, cyc := s.cyc, row := s.cur.row, frameReady := s.cur.frameReady, mem := s.mem }

/-- How many rows a history records as handed to the pipeline (R80). -/
def loadCount (es : List Event) : Nat :=
  es.countP fun e => match e with | .pipeLoad _ => true | _ => false

/-- How many tile numbers a history records as looked up: one per READ_TILE_NUM (R142). -/
def tileNumCount (es : List Event) : Nat :=
  es.countP fun e => match e with | .tileNumberAt _ _ => true | _ => false

/-- The recorded memory accesses of a history (R64, R84). -/
def memoryEvents (es : List Event) : List Event :=
  es.filter fun e => match e with | .memRead _ _ => true | .memWrite _ _ => true | _ => false

/-- The recorded writes of a history, in order (R84). -/
def memoryWrites (es : List Event) : List Event :=
  es.filter fun e => match e with | .memWrite _ _ => true | _ => false

/-- Two memories agree on the registers the block reads: LCDC, STAT, SCY, SCX and IF (R40). -/
def SameReadRegs (c : Config) (m m' : Memory) : Prop :=
  ∀ r ∈ [Reg.lcdc, .stat, .scy, .scx, .iflag], Memory.read m (regAddr c r) = Memory.read m' (regAddr c r)

end Sys2Proof.Machine
end

