-- ==== Sys2Proof/Certificates/Slice0/Obligations.lean ====
section
/-! DEFINITION. The statements for the provers. Each docstring names the rules of spec/ it formalises; OBLIGATIONS.json
lists them. Where a statement speaks of an answer a collaborator gives, it holds for every answer. -/

open Sys2Proof Sys2Proof.Machine

/-! ## Encoding (spec/30_encoding.md) -/

/-- Decoding an encoded well-formed command gives it back, from the word and from its opcode-table number. -/
def Obligations.DecodeOfEncodeGivesTheCommandBack : Prop :=
  ∀ i : Instr, i.WellFormed → decode (encode i) = .ok i ∧ decodeTableWord 32 (encode i).toNat = some i

/-- Every word has at most one reading: a decoded command is well formed and encodes to that very word. -/
def Obligations.DecodedCommandEncodesToItsWord : Prop :=
  ∀ (w : Word) (i : Instr), decode w = .ok i → i.WellFormed ∧ encode i = w

/-- R91: the decoder in plain arithmetic on the word's number, and exactly one table row for each command word, none
for a refused one. -/
def Obligations.DecodeFollowsTheRuleOnEveryWord : Prop :=
  ∀ w : Word,
    let op := w.toNat % 16
    let z0 := w.toNat / 16 % 16
    let opnd := w.toNat / 256
    (decode w =
      if z0 ≠ 0 then .error .reservedEncoding
      else if op = 1 then .ok (.tick opnd)
      else if op = 2 ∧ opnd = 0 then .ok .fproc
      else if op = 3 ∧ opnd = 0 then .ok .freset
      else if op = 4 ∧ opnd / 2 ^ 16 = 0 then .ok (.resolve (BitVec.ofNat 8 opnd) (BitVec.ofNat 8 (opnd / 2 ^ 8)))
      else if op = 5 ∧ opnd = 0 then .ok .reset
      else .error .reservedEncoding) ∧
    ((∃ i, decode w = .ok i) → (opcodeTable.filter fun r => rowMatches r w).length = 1) ∧
    (decode w = .error .reservedEncoding → ∀ r ∈ opcodeTable, rowMatches r w = false)

/-- R92: each class of reserved word sets the refused mark and changes no other state of the block. -/
def Obligations.ReservedWordSetsTheRefusedMarkAlone : Prop :=
  ∀ (s : State) (w : Word) (rest : List HostMove),
    s.Running → s.port = .command w :: rest →
    (w.toNat % 16 = 0 ∨ 6 ≤ w.toNat % 16 ∨ w.toNat / 16 % 16 ≠ 0 ∨
      ((w.toNat % 16 = 2 ∨ w.toNat % 16 = 3 ∨ w.toNat % 16 = 5) ∧ w.toNat / 256 ≠ 0) ∨
      (w.toNat % 16 = 4 ∧ w.toNat / 2 ^ 24 ≠ 0)) →
    step s = .next { s with port := rest, refused := true }

/-- R101: each command's word, with the rule's three examples. -/
def Obligations.CommandsAssembleToTheirWords : Prop :=
  (∀ n < 2 ^ 24, encode (.tick n) = (BitVec.ofNat 32 n <<< 8) ||| 0x01) ∧
  encode .fproc = 0x00000002 ∧ encode .freset = 0x00000003 ∧
  (∀ a b : Byte, encode (.resolve a b) = (b.setWidth 32 <<< 16) ||| (a.setWidth 32 <<< 8) ||| 0x04) ∧
  encode .reset = 0x00000005 ∧
  encode (.tick 80) = 0x00005001 ∧ encode (.tick 456) = 0x0001C801 ∧ encode (.resolve 0x1F 0x1E) = 0x001E1F04

/-- Words written out in spec/95_test_vectors.md section 3, and the commands they stand for. -/
def Obligations.SampleWordsDecodeToTheirCommands : Prop :=
  decode 0x00005001 = .ok (.tick 80) ∧ decode 0xFFFFFF01 = .ok (.tick 16777215) ∧
  decode 0x00000002 = .ok .fproc ∧ decode 0x00000003 = .ok .freset ∧
  decode 0x001E1F04 = .ok (.resolve 0x1F 0x1E) ∧ decode 0x00000005 = .ok .reset ∧
  decode 0x00000000 = .error .reservedEncoding ∧ decode 0x00000011 = .error .reservedEncoding ∧
  decode 0x01000004 = .error .reservedEncoding

/-- R96, R97 and R98: the encodings of `mode` and `f.state`, which use all four 2-bit values, one each, and the kind
codes, which use 0 to 4. R96 marks OAM_SEARCH = 2 and PIXEL_TRANSFER = 3 "[from general knowledge, not in source]"
(notes/assumptions/15.md). -/
def Obligations.StateEncodingsUseEveryValueOnce : Prop :=
  (modeCode .hblank = 0 ∧ modeCode .vblank = 1 ∧ modeCode .oamSearch = 2 ∧ modeCode .pixelTransfer = 3) ∧
  (fetchStateCode .readTileNum = 0 ∧ fetchStateCode .readData0 = 1 ∧ fetchStateCode .readData1 = 2 ∧
    fetchStateCode .transferReady = 3) ∧
  (kindCode .vblank = 0 ∧ kindCode .lcdcStat = 1 ∧ kindCode .timer = 2 ∧ kindCode .serial = 3 ∧ kindCode .joypad = 4) ∧
  (∀ m : Mode, modeOfCode (modeCode m) = m) ∧ (∀ c : BitVec 2, modeCode (modeOfCode c) = c) ∧
  (∀ x : FetchState, fetchStateOfCode (fetchStateCode x) = x) ∧
  (∀ c : BitVec 2, fetchStateCode (fetchStateOfCode c) = c) ∧ (∀ k : IrqKind, (kindCode k).toNat < 5)

/-- The assembler takes an operand in its range to its value and refuses it out of range (spec/30_encoding.md
section 3): both operands of RESOLVE and the operand of TICK, at every number a text spells (notes/assumptions/12.md). -/
def Obligations.AssemblerRefusesOutOfRangeOperands : Prop :=
  (∀ (text : List Char) (v : Nat), readNumber text = some v →
    readCommand [['t', 'i', 'c', 'k'], text] = if v < 2 ^ 24 then some (.tick v) else none) ∧
  (∀ (ta tb : List Char) (a b : Nat), readNumber ta = some a → readNumber tb = some b →
    readCommand [['r', 'e', 's', 'o', 'l', 'v', 'e'], ta, [','], tb] =
      if a < 2 ^ 8 ∧ b < 2 ^ 8 then some (.resolve (BitVec.ofNat 8 a) (BitVec.ofNat 8 b)) else none)

/-! ## Steps, stopping and the outside -/

/-- A presented word that decodes runs as exactly that command, the word gone from the port
(notes/assumptions/11.md). -/
def Obligations.StepRunsTheDecodedCommand : Prop :=
  ∀ (s : State) (w : Word) (rest : List HostMove) (i : Instr),
    s.Running → s.port = .command w :: rest → decode w = .ok i → step s = exec i { s with port := rest }

/-- What the outside does between commands changes what it names and nothing else; with nothing at the port the block
holds its state (R227; the port is the model's, notes/assumptions/11.md). -/
def Obligations.HostMovesChangeOnlyWhatTheyName : Prop :=
  ∀ (s : State) (rest : List HostMove), s.Running → Memory.wf s.mem = true →
    (∀ r v, s.port = .writeReg r v :: rest → ∃ m, step s = .next { s with port := rest, mem := m } ∧
      Memory.wf m = true ∧ ∀ a, Memory.read m a = if a = regAddr s.cfg r then v else Memory.read s.mem a) ∧
    (∀ r, s.port = .readReg r :: rest → step s = .next { s with port := rest }) ∧
    (s.port = .clearFrameReady :: rest →
      step s = .next { s with port := rest, cur := { s.cur with frameReady := false } }) ∧
    (s.port = [] → step s = .next s)

/-- R186: once the fault is set or the refused mark is true, no command has a step, RESET included. -/
def Obligations.StoppedBlockTakesNoStep : Prop :=
  (∀ (s : State) (c : FaultCode), s.fault = some c →
    (∀ i, exec i s = .fault (.blockFaulted c)) ∧
    ∀ w rest, s.port = .command w :: rest → step s = .fault (.blockFaulted c)) ∧
  (∀ s : State, s.fault = none → s.refused = true →
    (∀ i, exec i s = .refused .blockRefused) ∧
    ∀ w rest, s.port = .command w :: rest → step s = .refused .blockRefused)

/-- A command that ends refused has changed the mark and nothing else of the block's record S (R185): what it did to S
before the over-long row is undone, which is the model's reading (notes/assumptions/8.md). Everything it asked and read
is recorded, the call that was refused last (R84). -/
def Obligations.RefusedCommandChangesOnlyTheMark : Prop :=
  ∀ (i : Instr) (s t : State), exec i s = .next t → t.refused = true →
    t = { s with refused := true, history := t.history, collab := t.collab } ∧
    ∃ (before : List Event) (tile : Tile) (p : List Pixel),
      t.history = s.history ++ before ++ [.rowPixels tile (s.cur.row % 8) p] ∧ 8 < p.length

/-! ## Reset and the invariant -/

/-- R200: RESET's whole effect. -/
def Obligations.ResetCommandGivesTheResetState : Prop :=
  ∀ s : State, s.Running → exec .reset s = .next
    { s with
      mode := .oamSearch
      cyc := 0
      cur := { col := 0, row := 0, frameReady := false }
      f := { state := .readTileNum, tileX := 0, acc := 0, tileIndex := none, tile := none, pixRow := none }
      history := s.history ++ [.pipeReset] }

/-- R201: at power-on, for every choice of the parameters and of INIT_REGS. -/
def Obligations.PowerOnHoldsTheResetStateAndInitRegs : Prop :=
  ∀ (c : Config) (r : InitRegs) (moves : List HostMove) (env : Collaborators), c.Wf →
    let s := launch c r moves env
    s.mode = .oamSearch ∧ s.cyc = 0 ∧ s.cur = { col := 0, row := 0, frameReady := false } ∧
    s.f = { state := .readTileNum, tileX := 0, acc := 0, tileIndex := none, tile := none, pixRow := none } ∧
    s.fault = none ∧ s.refused = false ∧ s.history = [] ∧
    readReg s .lcdc = r.lcdc ∧ readReg s .stat = r.stat ∧ readReg s .scy = r.scy ∧ readReg s .scx = r.scx ∧
    readReg s .ly = r.ly ∧ readReg s .iflag = r.iflag ∧ readReg s .ienable = r.ienable

/-- Every step keeps the invariant: well-formed parameters, canonical memory, Fetcher fields that agree with its state,
a row in the range of the mode. -/
def Obligations.EveryStepKeepsTheInvariant : Prop :=
  ∀ s t : State, s.Inv → step s = .next t → t.Inv

/-- The invariant holds at power-on, for every admitted choice of parameters, INIT_REGS, moves and collaborators. -/
def Obligations.InvariantHoldsAtPowerOn : Prop :=
  State.reset.Inv ∧
  ∀ (c : Config) (r : InitRegs) (moves : List HostMove) (env : Collaborators), c.Wf → (launch c r moves env).Inv

/-- From the invariant the only fault is FLT_PIPE_ZERO_COST: no field without a value is read, and no field holds a
value outside its encoding. -/
def Obligations.OnlyZeroCostFaultsFromTheInvariant : Prop :=
  ∀ s t : State, s.Inv → s.Running → step s = .next t →
    t.fault = none ∨ ∃ n rem, t.fault = some (.pipeZeroCost n rem)

/-- Memory is determined by its bytes: the canonical form is the model's (notes/assumptions/2.md). -/
def Obligations.MemoriesWithEqualBytesAreEqual : Prop :=
  ∀ m m' : Memory, Memory.wf m = true → Memory.wf m' = true → (∀ a, Memory.read m a = Memory.read m' a) → m = m'

/-! ## TICK, arm by arm (spec/41_mode_controller.md) -/

/-- R110: the OAM_SEARCH arm; the sprite height is R111's. -/
def Obligations.TickInOamSearch : Prop :=
  ∀ (s : State) (n : Nat), s.Running → s.mode = .oamSearch →
    (s.cyc + n < 80 → exec (.tick n) s = .next { s with cyc := s.cyc + n }) ∧
    (80 ≤ s.cyc + n → exec (.tick n) s = .next
      { s with
        mode := .pixelTransfer
        cyc := s.cyc + n - 80
        history := s.history ++ [.memRead s.cfg.addrLcdc (readReg s .lcdc),
          .findVisible s.cur.row (if (readReg s .lcdc).getLsbD 2 then 16 else 8)] })

/-- R117 and R119: the HBLANK arm, with every register it writes, all it leaves alone, and its events in
order; that a read-modify-write is recorded as a read and a write is the model's (notes/assumptions/17.md). -/
def Obligations.TickInHblank : Prop :=
  ∀ (s : State) (n : Nat), s.Running → s.cfg.Wf → Memory.wf s.mem = true → s.mode = .hblank →
    (s.cyc + n < 204 → exec (.tick n) s = .next { s with cyc := s.cyc + n }) ∧
    (204 ≤ s.cyc + n →
      let stat := readReg s .stat
      let iflag := readReg s .iflag
      let bit := 1#8 <<< s.cfg.irq.lcdcStat.bit.val
      let ly := BitVec.ofNat 8 s.cur.row
      let latched := stat &&& s.cfg.statM0Test ≠ 0
      ∃ m, exec (.tick n) s = .next
        { s with
          mode := if s.cfg.visibleRows ≤ s.cur.row + 1 then .vblank else .oamSearch
          cyc := s.cyc + n - 204
          cur := { col := 0, row := s.cur.row + 1, frameReady := s.cur.frameReady }
          mem := m
          history := s.history ++
            (if latched then [.memRead s.cfg.addrStat stat]
             else [.memRead s.cfg.addrStat stat, .memRead s.cfg.addrIf iflag, .memWrite s.cfg.addrIf (iflag ||| bit),
               .memRead s.cfg.addrStat stat, .memWrite s.cfg.addrStat (stat ||| s.cfg.statM0Set)]) ++
            [.memWrite s.cfg.addrLy ly] } ∧
        ∀ a, Memory.read m a =
          if a = s.cfg.addrLy then ly
          else if a = s.cfg.addrIf then (if latched then iflag else iflag ||| bit)
          else if a = s.cfg.addrStat then (if latched then stat else stat ||| s.cfg.statM0Set)
          else Memory.read s.mem a)

/-- R121: the VBLANK arm, line exit and frame wrap; a read-modify-write is recorded as in the HBLANK arm
(notes/assumptions/17.md). -/
def Obligations.TickInVblank : Prop :=
  ∀ (s : State) (n : Nat), s.Running → s.cfg.Wf → Memory.wf s.mem = true → s.mode = .vblank →
    (s.cyc + n < 456 → exec (.tick n) s = .next { s with cyc := s.cyc + n }) ∧
    (456 ≤ s.cyc + n →
      let stat := readReg s .stat
      let iflag := readReg s .iflag
      let bit := 1#8 <<< s.cfg.irq.vblank.bit.val
      let ly := BitVec.ofNat 8 s.cur.row
      let latched := stat &&& s.cfg.statM1Test ≠ 0
      let wraps := s.cfg.visibleRows + 9 < s.cur.row + 1
      ∃ m, exec (.tick n) s = .next
        { s with
          mode := if wraps then .oamSearch else .vblank
          cyc := s.cyc + n - 456
          cur := { col := s.cur.col, row := if wraps then 0 else s.cur.row + 1
                   frameReady := if wraps then true else s.cur.frameReady }
          mem := m
          history := s.history ++
            (if latched then [.memRead s.cfg.addrStat stat]
             else [.memRead s.cfg.addrStat stat, .memRead s.cfg.addrIf iflag, .memWrite s.cfg.addrIf (iflag ||| bit),
               .memRead s.cfg.addrStat stat, .memWrite s.cfg.addrStat (stat ||| s.cfg.statM1Set)]) ++
            [.memWrite s.cfg.addrLy ly] } ∧
        ∀ a, Memory.read m a =
          if a = s.cfg.addrLy then ly
          else if a = s.cfg.addrIf then (if latched then iflag else iflag ||| bit)
          else if a = s.cfg.addrStat then (if latched then stat else stat ||| s.cfg.statM1Set)
          else Memory.read s.mem a)

/-- The PIXEL_TRANSFER arm completes whenever the collaborators keep their contracts over the turns it can take: the
controller's fields, memory and the port are as before but for the counter, the events are only added to, and at the
exit the Fetcher is reset, then the pipeline, and HBLANK entered. -/
def Obligations.TickInPixelTransferCompletes : Prop :=
  ∀ (s : State) (n : Nat), s.Running → s.f.Inv → s.mode = .pixelTransfer → PipeOwesCost n s → RowsOweLength n s →
    ∃ t, exec (.tick n) s = .next t ∧ t.Running ∧ t.f.Inv ∧
      t.mem = s.mem ∧ t.cur.row = s.cur.row ∧ t.cur.frameReady = s.cur.frameReady ∧
      t.responses = s.responses ∧ t.port = s.port ∧ t.cfg = s.cfg ∧ s.history <+: t.history ∧
      (s.cyc + n < 172 → t.mode = .pixelTransfer ∧ t.cyc = s.cyc + n) ∧
      (172 ≤ s.cyc + n → t.mode = .hblank ∧ t.cyc = s.cyc + n - 172 ∧
        t.f.state = .readTileNum ∧ t.f.tileX = 0 ∧ t.f.acc = 0 ∧ t.history.getLast? = some .pipeReset)

/-- R112's loop is the model's: with a bound no smaller than the remaining budget, the loop stops when the budget is
exhausted, and otherwise takes one turn (a)-(d) and goes on with the cost subtracted. The bound is the model's
(notes/assumptions/19.md). -/
def Obligations.InnerLoopIsTheWhileLoop : Prop :=
  ∀ (n fuel : Nat) (rem : Int) (s : State), rem ≤ fuel →
    (rem ≤ 0 → innerLoop n fuel rem s = .go s) ∧
    (0 < rem →
      let cost := (s.collab.pipe.answer Config.freePipeAnswer).cost
      innerLoop n fuel rem s =
        if cost = 0 then .raise (.pipeZeroCost n rem) (pipeProcess s).2
        else (fetcherStep (pipeProcess s).2).andThen fun t => (handOff t).andThen fun u =>
          innerLoop n fuel (rem - cost) u)

/-- R114 on the first turn: a cost of 0 faults at once; no Fetcher step runs, and the effects made before it stand,
the column the pipeline wrote among them (notes/assumptions/14.md). -/
def Obligations.ZeroCostOnTheFirstTurnFaultsAtOnce : Prop :=
  ∀ (s : State) (n : Nat), s.Running → s.mode = .pixelTransfer → 0 < n →
    (s.collab.pipe.answer Config.freePipeAnswer).cost = 0 →
    exec (.tick n) s = .next
      { s with
        cyc := s.cyc + n
        cur := { s.cur with col := (s.collab.pipe.answer Config.freePipeAnswer).newCol.getD s.cur.col }
        collab := { s.collab with pipe := s.collab.pipe.advance }
        history := s.history ++ [.pipeProcess s.cur (s.collab.pipe.answer Config.freePipeAnswer)]
        fault := some (.pipeZeroCost n n) }

/-- Wherever FLT_PIPE_ZERO_COST is recorded, it was a TICK in PIXEL_TRANSFER with some of its budget left, the counter
had been advanced, and the last thing the block did was the `Pipe.process` call that answered 0. -/
def Obligations.ZeroCostFaultRecordsWhatHappened : Prop :=
  ∀ (i : Instr) (s t : State) (n : Nat) (rem : Int), exec i s = .next t → t.fault = some (.pipeZeroCost n rem) →
    i = .tick n ∧ s.mode = .pixelTransfer ∧ t.mode = .pixelTransfer ∧ t.cyc = s.cyc + n ∧ 0 < rem ∧ rem ≤ n ∧
    ∃ cur newCol, t.history.getLast? = some (.pipeProcess cur { cost := 0, newCol := newCol })

/-- One turn of the inner loop with the Fetcher at TRANSFER_READY: an idle pipeline is handed the row and the Fetcher
restarts with its cursor and data kept; a busy one is asked and the Fetcher waits. -/
def Obligations.HandOffHappensOnlyToAnIdlePipeline : Prop :=
  ∀ (s : State) (p : List Pixel), s.Running → s.mode = .pixelTransfer → s.f.state = .transferReady →
    s.f.pixRow = some p → 1 ≤ (s.collab.pipe.answer Config.freePipeAnswer).cost → s.cyc + 1 < 172 →
    let a := s.collab.pipe.answer Config.freePipeAnswer
    let idle := s.collab.pipeIdle.answer Config.freePipeIdle
    exec (.tick 1) s = .next
      { s with
        cyc := s.cyc + 1
        cur := { s.cur with col := a.newCol.getD s.cur.col }
        f := if idle then { s.f with state := .readTileNum, acc := 0 } else s.f
        collab := { s.collab with pipe := s.collab.pipe.advance, pipeIdle := s.collab.pipeIdle.advance }
        history := s.history ++ [.pipeProcess s.cur a, .pipeIdle idle] ++ (if idle then [.pipeLoad p] else []) }

/-- R153: from a Fetcher reset, with the loop's budget the sum of the next k costs, so that it takes exactly k turns: an
always idle pipeline has been handed k / 6 rows, and (k + 4) / 6 tile numbers were looked up; a never idle one has been
handed none, and the Fetcher waits at TRANSFER_READY from turn 6 on. -/
def Obligations.ColumnPeriodOfTheInnerLoop : Prop :=
  ∀ (n k fuel : Nat) (s : State), s.f.state = .readTileNum → s.f.tileX = 0 → s.f.acc = 0 →
    let cost := fun j => (s.collab.pipe.upcoming Config.freePipeAnswer j).cost
    let budget := ((List.range k).map cost).sum
    (∀ j < k, 1 ≤ cost j) → budget ≤ fuel → RowsOweLength k s →
    ((∀ j < k, s.collab.pipeIdle.upcoming Config.freePipeIdle j = true) →
      ∃ t, innerLoop n fuel budget s = .go t ∧ t.f.tileX = 8 * ((k + 4) / 6) ∧
        loadCount t.history = loadCount s.history + k / 6 ∧
        tileNumCount t.history = tileNumCount s.history + (k + 4) / 6) ∧
    ((∀ j < k, s.collab.pipeIdle.upcoming Config.freePipeIdle j = false) →
      ∃ t, innerLoop n fuel budget s = .go t ∧ loadCount t.history = loadCount s.history ∧
        (t.f.state = .transferReady ↔ 6 ≤ k))

/-- R130: `tick 0`. -/
def Obligations.TickZeroRunsTheArmOnce : Prop :=
  ∀ s : State, s.Running →
    (s.cyc < modeBudget s.mode → exec (.tick 0) s = .next s) ∧
    (modeBudget s.mode ≤ s.cyc → ∃ t, exec (.tick 0) s = .next t ∧ modeEdge s.mode t.mode = true ∧
      t.cyc = s.cyc - modeBudget s.mode) ∧
    (s.mode = .pixelTransfer → 172 ≤ s.cyc → exec (.tick 0) s = .next
      { s with
        mode := .hblank
        cyc := s.cyc - 172
        f := { s.f with state := .readTileNum, tileX := 0, acc := 0 }
        history := s.history ++ [.pipeReset] })

/-! ## TICK, the laws of the whole command -/

/-- One TICK takes one edge of the transition graph when the budget is reached, whatever its operand, and none
otherwise; it keeps the leftover cycles. -/
def Obligations.AtMostOneTransitionPerTick : Prop :=
  ∀ (n : Nat) (s t : State), exec (.tick n) s = .next t → t.Running →
    (¬ ExitDue n s → t.mode = s.mode ∧ t.cyc = s.cyc + n ∧ t.cur.row = s.cur.row) ∧
    (ExitDue n s → modeEdge s.mode t.mode = true ∧ t.cyc = s.cyc + n - modeBudget s.mode)

/-- The granularity law: with operands of at most 80 and a counter below the budget, mode, counter, row, frame-ready,
memory and the writes made depend only on the operands' sum, and the counter stays below the budget. -/
def Obligations.OnlyTheSumOfSmallTicksMatters : Prop :=
  ∀ (ns ms : List Nat) (s t u : State), (∀ n ∈ ns, n ≤ 80) → (∀ m ∈ ms, m ≤ 80) → ns.sum = ms.sum →
    s.cyc < modeBudget s.mode →
    runCommands (ticks ns) s = .next t → t.Running → runCommands (ticks ms) s = .next u → u.Running →
    t.view = u.view ∧ memoryWrites t.history = memoryWrites u.history ∧ t.cyc < modeBudget t.mode

/-- One frame of cycles in steps of at most 80, from the start of a frame, ends at the start of the next with
frame-ready set and LY at the last VBLANK row. -/
def Obligations.OneFrameOfSmallTicksReturnsToItsStart : Prop :=
  ∀ (ns : List Nat) (s t : State), (∀ n ∈ ns, n ≤ 80) → ns.sum = frameCycles s.cfg → s.cfg.Wf →
    Memory.wf s.mem = true → s.mode = .oamSearch → s.cyc = 0 → s.cur.row = 0 →
    runCommands (ticks ns) s = .next t → t.Running →
    t.mode = .oamSearch ∧ t.cyc = 0 ∧ t.cur.row = 0 ∧ t.cur.frameReady = true ∧
    readReg t .ly = BitVec.ofNat 8 (s.cfg.visibleRows + 9)

/-- The latch: an exit that finds it set raises nothing; one that finds it clear raises the request, and leaves it set
when the set mask meets the test mask, clear when it does not. -/
def Obligations.LatchSuppressesTheSecondRequest : Prop :=
  ∀ (n : Nat) (s t : State), s.cfg.Wf → Memory.wf s.mem = true → exec (.tick n) s = .next t → ExitDue n s →
    (s.mode = .hblank →
      (readReg s .stat &&& s.cfg.statM0Test ≠ 0 →
        readReg t .iflag = readReg s .iflag ∧ readReg t .stat = readReg s .stat) ∧
      (readReg s .stat &&& s.cfg.statM0Test = 0 →
        (readReg t .iflag).getLsbD s.cfg.irq.lcdcStat.bit.val = true ∧
        (readReg t .stat &&& s.cfg.statM0Test ≠ 0 ↔ s.cfg.statM0Set &&& s.cfg.statM0Test ≠ 0))) ∧
    (s.mode = .vblank →
      (readReg s .stat &&& s.cfg.statM1Test ≠ 0 →
        readReg t .iflag = readReg s .iflag ∧ readReg t .stat = readReg s .stat) ∧
      (readReg s .stat &&& s.cfg.statM1Test = 0 →
        (readReg t .iflag).getLsbD s.cfg.irq.vblank.bit.val = true ∧
        (readReg t .stat &&& s.cfg.statM1Test ≠ 0 ↔ s.cfg.statM1Set &&& s.cfg.statM1Test ≠ 0)))

/-- What a TICK leaves alone: the response words, the port and the parameters always; memory outside IF, STAT and LY;
the Fetcher and the feeds outside PIXEL_TRANSFER; the column except in PIXEL_TRANSFER and at an HBLANK exit. -/
def Obligations.TickFrame : Prop :=
  ∀ (n : Nat) (s t : State), Memory.wf s.mem = true → exec (.tick n) s = .next t →
    t.responses = s.responses ∧ t.port = s.port ∧ t.cfg = s.cfg ∧ s.history <+: t.history ∧
    (∀ a, a ≠ s.cfg.addrIf → a ≠ s.cfg.addrStat → a ≠ s.cfg.addrLy → Memory.read t.mem a = Memory.read s.mem a) ∧
    (s.mode ≠ .pixelTransfer → t.f = s.f ∧ t.collab = s.collab ∧ t.fault = none ∧ t.refused = false) ∧
    (s.mode ≠ .pixelTransfer → s.mode ≠ .hblank → t.cur.col = s.cur.col) ∧
    ((s.mode = .oamSearch ∨ s.mode = .pixelTransfer) →
      t.mem = s.mem ∧ t.cur.row = s.cur.row ∧ t.cur.frameReady = s.cur.frameReady)

/-! ## The Tile Fetcher (spec/42_tile_fetcher.md) -/

/-- A fetch step at TRANSFER_READY changes nothing, and one that the divider holds back only counts. -/
def Obligations.FprocWaitsAndCounts : Prop :=
  ∀ s : State, s.Running →
    (s.f.state = .transferReady → exec .fproc s = .next s) ∧
    (s.f.state ≠ .transferReady → s.f.acc + 1 < 2 →
      exec .fproc s = .next { s with f := { s.f with acc := s.f.acc + 1 } })

/-- R142: READ_TILE_NUM, when the divider fires. -/
def Obligations.FprocReadsTheTileNumber : Prop :=
  ∀ s : State, s.Running → s.f.state = .readTileNum → 2 ≤ s.f.acc + 1 →
    let scx := readReg s .scx
    let scy := readReg s .scy
    let base := s.collab.mapBase.answer Config.freeMapBase
    let addr := tileMapAddr s.cfg base (scx.toNat % s.cfg.screenW) (scy.toNat % s.cfg.screenH) s.cur.row s.f.tileX
    let index := s.collab.tileNumber.answer Config.freeTileNumber
    exec .fproc s = .next
      { s with
        f := { s.f with state := .readData0, acc := 0, tileX := s.f.tileX + 8, tileIndex := some index }
        collab := { s.collab with
          mapBase := s.collab.mapBase.advance, tileNumber := s.collab.tileNumber.advance }
        history := s.history ++ [.memRead s.cfg.addrScx scx, .memRead s.cfg.addrScy scy, .mapBase base,
          .tileNumberAt addr index] }

/-- R143: READ_DATA_0, when the divider fires; an index with no value is FLT_UNWRITTEN. -/
def Obligations.FprocResolvesTheTile : Prop :=
  ∀ s : State, s.Running → s.f.state = .readData0 → 2 ≤ s.f.acc + 1 →
    (∀ i, s.f.tileIndex = some i → exec .fproc s = .next
      { s with
        f := { s.f with state := .readData1, acc := 0, tile := some (s.collab.tile.answer Config.freeTile) }
        collab := { s.collab with tile := s.collab.tile.advance }
        history := s.history ++ [.tileFor i (s.collab.tile.answer Config.freeTile)] }) ∧
    (s.f.tileIndex = none → exec .fproc s = .next
      { s with f := { s.f with acc := 0 }, fault := some (.unwritten .tileIndex) })

/-- R144: READ_DATA_1, when the divider fires; the row inside the tile is the scanline row mod 8. A row of more than
8 samples is refused, its call recorded and of S the mark alone changed (notes/assumptions/8.md); a tile with no value
is FLT_UNWRITTEN. -/
def Obligations.FprocExtractsThePixelRow : Prop :=
  ∀ s : State, s.Running → s.f.state = .readData1 → 2 ≤ s.f.acc + 1 →
    let p := s.collab.rowPixels.answer Config.freeRowPixels
    (∀ tile, s.f.tile = some tile → p.length ≤ 8 → exec .fproc s = .next
      { s with
        f := { s.f with state := .transferReady, acc := 0, pixRow := some p }
        collab := { s.collab with rowPixels := s.collab.rowPixels.advance }
        history := s.history ++ [.rowPixels tile (s.cur.row % 8) p] }) ∧
    (∀ tile, s.f.tile = some tile → 8 < p.length → exec .fproc s = .next
      { s with
        refused := true
        collab := { s.collab with rowPixels := s.collab.rowPixels.advance }
        history := s.history ++ [.rowPixels tile (s.cur.row % 8) p] }) ∧
    (s.f.tile = none → exec .fproc s = .next
      { s with f := { s.f with acc := 0 }, fault := some (.unwritten .tile) })

/-- R148: from READ_TILE_NUM with the divider at 0, exactly six fetch steps reach TRANSFER_READY, the micro-steps' work
coming at steps 2, 4 and 6, and further steps change nothing. -/
def Obligations.SixFetchStepsReachTransferReady : Prop :=
  ∀ s : State, s.Running → s.f.state = .readTileNum → s.f.acc = 0 → RowsOweLength 1 s →
    ∃ t : Nat → State,
      (∀ k, runCommands (List.replicate k .fproc) s = .next (t k) ∧ (t k).Running) ∧
      (t 1).f.state = .readTileNum ∧ (t 2).f.state = .readData0 ∧ (t 3).f.state = .readData0 ∧
      (t 4).f.state = .readData1 ∧ (t 5).f.state = .readData1 ∧ (t 6).f.state = .transferReady ∧
      (t 1).f.tileX = s.f.tileX ∧ (t 1).history = s.history ∧
      (t 2).f.tileX = s.f.tileX + 8 ∧ (t 3).history = (t 2).history ∧
      (t 5).history = (t 4).history ∧
      (∃ scx scy base addr index, (t 2).f.tileIndex = some index ∧ (t 2).history = s.history ++
        [.memRead s.cfg.addrScx scx, .memRead s.cfg.addrScy scy, .mapBase base, .tileNumberAt addr index] ∧
        ∃ tile, (t 4).f.tile = some tile ∧ (t 4).history = (t 3).history ++ [.tileFor index tile] ∧
          ∃ p, (t 6).f.pixRow = some p ∧ (t 6).history = (t 5).history ++ [.rowPixels tile (s.cur.row % 8) p]) ∧
      (t 3).f.tile = s.f.tile ∧ (t 5).f.pixRow = s.f.pixRow ∧ ∀ k, t (6 + k) = t 6

/-- What a fetch step by the host leaves alone: all but the Fetcher, its collaborators' feeds, the history and the
marks; it never hands a row over, and of memory it writes nothing and reads SCX then SCY at most. -/
def Obligations.FprocFrame : Prop :=
  ∀ s t : State, exec .fproc s = .next t →
    SameController s t ∧ t.cur = s.cur ∧ t.collab.pipe = s.collab.pipe ∧ t.collab.pipeIdle = s.collab.pipeIdle ∧
    ∃ new, t.history = s.history ++ new ∧ loadCount new = 0 ∧
      (memoryEvents new = [] ∨
        memoryEvents new = [.memRead s.cfg.addrScx (readReg s .scx), .memRead s.cfg.addrScy (readReg s .scy)])

/-- R147, through FRESET: state, cursor and divider; the data fields and everything else keep their values. -/
def Obligations.FresetReturnsToTheScanlineStart : Prop :=
  ∀ s : State, s.Running → exec .freset s = .next
    { s with f := { s.f with state := .readTileNum, tileX := 0, acc := 0 } }

/-! ## The Interrupt Resolver (spec/43_interrupt_resolver.md) -/

/-- R172: the answer depends only on the table bits of `req & en`; all set answers VBLANK, and VBLANK cleared in either
mask LCDC/STAT; kind k is answered exactly when it is pending and none of higher priority is; none exactly when nothing
is pending. RESOLVE drives that answer and changes nothing else, so issued twice it answers the same. -/
def Obligations.ResolveAnswersTheHighestPending : Prop :=
  (∀ (s : State) (req en : Byte), s.Running → exec (.resolve req en) s = .next
    { s with responses := s.responses ++ [responseWord s.cfg.irq (resolveKind s.cfg.irq req en)] }) ∧
  ∀ (t : IrqTable) (req en : Byte),
    let bitOf := fun k => (irqDescriptor t k).bit.val
    (∀ req' en' : Byte, (∀ k, (req &&& en).getLsbD (bitOf k) = (req' &&& en').getLsbD (bitOf k)) →
      resolveKind t req en = resolveKind t req' en') ∧
    ((∀ k, req.getLsbD (bitOf k) = true ∧ en.getLsbD (bitOf k) = true) → resolveKind t req en = some .vblank) ∧
    ((∀ k, k ≠ .vblank → req.getLsbD (bitOf k) = true ∧ en.getLsbD (bitOf k) = true) →
      (req.getLsbD (bitOf .vblank) = false ∨ en.getLsbD (bitOf .vblank) = false) →
      resolveKind t req en = some .lcdcStat) ∧
    (∀ k, resolveKind t req en = some k ↔ (req &&& en).getLsbD (bitOf k) = true ∧
      ∀ j, (kindCode j).toNat < (kindCode k).toNat → (req &&& en).getLsbD (bitOf j) = false) ∧
    (resolveKind t req en = none ↔ ∀ k, (req &&& en).getLsbD (bitOf k) = false)

/-- R95: RESOLVE drives one response word, the word's layout, and that no other command drives one. -/
def Obligations.ResponseWordLayout : Prop :=
  (∀ (t : IrqTable) (k : IrqKind),
    let w := (responseWord t (some k)).toNat
    w % 2 = 1 ∧ w / 2 % 8 = (kindCode k).toNat ∧ w / 16 % 16 = 0 ∧ w / 256 % 256 = (irqDescriptor t k).bit.val ∧
    w / 65536 = (irqDescriptor t k).vector.toNat) ∧
  (∀ t : IrqTable, responseWord t none = 0) ∧
  (∀ (s : State) (req en : Byte), s.Running → ∃ t, exec (.resolve req en) s = .next t ∧
    t.responses = s.responses ++ [responseWord s.cfg.irq (resolveKind s.cfg.irq req en)]) ∧
  (∀ (i : Instr) (s t : State), exec i s = .next t → (∀ req en, i ≠ .resolve req en) → t.responses = s.responses)

/-! ## Rules of the whole machine -/

/-- R190: no command clears an IF bit or a STAT bit or writes IE; an outside write between commands sets the register
to any value. -/
def Obligations.NoCommandClearsIfStatOrIe : Prop :=
  (∀ (i : Instr) (s t : State), s.cfg.Wf → Memory.wf s.mem = true → exec i s = .next t →
    (∀ b, (readReg s .iflag).getLsbD b = true → (readReg t .iflag).getLsbD b = true) ∧
    (∀ b, (readReg s .stat).getLsbD b = true → (readReg t .stat).getLsbD b = true) ∧
    readReg t .ienable = readReg s .ienable) ∧
  (∀ (s : State) (r : Reg) (v : Byte) (rest : List HostMove), s.Running → Memory.wf s.mem = true →
    s.port = .writeReg r v :: rest → ∃ t, step s = .next t ∧ readReg t r = v)

/-- A request is raised only at an HBLANK exit (the LCDC/STAT bit) or a VBLANK line exit (the VBLANK bit); no command
touches any other IF bit. -/
def Obligations.RequestsAreRaisedOnlyAtTwoExits : Prop :=
  ∀ (i : Instr) (s t : State), s.cfg.Wf → Memory.wf s.mem = true → exec i s = .next t →
    readReg t .iflag = readReg s .iflag ∨
    (∃ n, i = .tick n ∧ ExitDue n s ∧
      ((s.mode = .hblank ∧ readReg t .iflag = readReg s .iflag ||| (1#8 <<< s.cfg.irq.lcdcStat.bit.val)) ∨
       (s.mode = .vblank ∧ readReg t .iflag = readReg s .iflag ||| (1#8 <<< s.cfg.irq.vblank.bit.val))))

/-- LY is written at an HBLANK or VBLANK exit, with the row before its increment mod 256, and by no other command: it
lags the row (R43, R128). -/
def Obligations.LyIsWrittenAtTheTwoExitsOnly : Prop :=
  ∀ (i : Instr) (s t : State), s.cfg.Wf → Memory.wf s.mem = true → exec i s = .next t →
    (∀ n, i = .tick n → ExitDue n s → (s.mode = .hblank ∨ s.mode = .vblank) →
      readReg t .ly = BitVec.ofNat 8 (s.cur.row % 256)) ∧
    ((∀ n, i = .tick n → ExitDue n s → s.mode ≠ .hblank ∧ s.mode ≠ .vblank) → readReg t .ly = readReg s .ly)

/-- R28: only the VBLANK wrap sets frame-ready; only RESET and the external consumer clear it. -/
def Obligations.WhoWritesFrameReady : Prop :=
  ∀ s t : State, step s = .next t →
    (s.cur.frameReady = false → t.cur.frameReady = true →
      ∃ w n rest, s.port = .command w :: rest ∧ decode w = .ok (.tick n) ∧ s.mode = .vblank ∧ 456 ≤ s.cyc + n ∧
        s.cfg.visibleRows + 9 < s.cur.row + 1) ∧
    (s.cur.frameReady = true → t.cur.frameReady = false →
      ∃ move rest, s.port = move :: rest ∧ (move = .clearFrameReady ∨ ∃ w, move = .command w ∧ decode w = .ok .reset))

/-- Only TICK and RESET write the mode, the counter and the cursor, only an exit of TICK writes memory, and RESET and
the other commands write none: each command's frame on the controller. -/
def Obligations.OnlyTickAndResetMoveTheController : Prop :=
  ∀ (i : Instr) (s t : State), exec i s = .next t →
    ((∀ n, i ≠ .tick n) → t.mem = s.mem ∧ t.port = s.port ∧ t.cfg = s.cfg) ∧
    ((∀ n, i ≠ .tick n) → i ≠ .reset → t.mode = s.mode ∧ t.cyc = s.cyc ∧ t.cur = s.cur) ∧
    (∀ n, i = .tick n → ¬ ExitDue n s → t.mem = s.mem)

/-- The block never reads LY or IE, nor any byte but LCDC, STAT, SCY, SCX and IF: two states that differ only in other
bytes run every command alike, and the results differ only in other bytes. -/
def Obligations.OtherBytesNeverReachTheBlock : Prop :=
  ∀ (i : Instr) (s t : State) (m : Memory), s.cfg.Wf → Memory.wf s.mem = true → Memory.wf m = true →
    SameReadRegs s.cfg s.mem m → exec i s = .next t →
    ∃ m', exec i { s with mem := m } = .next { t with mem := m' } ∧ SameReadRegs s.cfg t.mem m'

/-- The past is never rewritten: a step only adds to the event history and to the response words, and never changes
the parameters; these lists are the model's form (notes/assumptions/10.md). -/
def Obligations.StepsOnlyAddToTheRecord : Prop :=
  ∀ s t : State, step s = .next t →
    s.history <+: t.history ∧ s.responses <+: t.responses ∧ t.cfg = s.cfg ∧
    (t.port = s.port ∨ ∃ move, s.port = move :: t.port)

/-- A TICK whose inner loop is refused leaves its starting state with the mark, and with every event and every answer of
the turns up to the refused call (R84, R185; notes/assumptions/8.md). -/
def Obligations.RefusedTickKeepsTheEventsOfItsTurns : Prop :=
  ∀ (s u : State) (n : Nat) (r : RefuseReason), s.Running → s.mode = .pixelTransfer →
    innerLoop n n n { s with cyc := s.cyc + n } = .refuse r u →
    exec (.tick n) s = .next { s with refused := true, history := u.history, collab := u.collab } ∧
    s.history <+: u.history
end

