-- ==== Sys2Proof/Laws/State.lean ====
section
/-! SUPPORT. One lemma per field per update of State, and the same for the Screen Cursor's updates. -/

namespace Sys2Proof.Machine

@[simp] theorem State.setMode_mode (s : State) (m : Mode) : (s.setMode m).mode = m := rfl
@[simp] theorem State.setMode_cyc (s : State) (m : Mode) : (s.setMode m).cyc = s.cyc := rfl
@[simp] theorem State.setMode_cur (s : State) (m : Mode) : (s.setMode m).cur = s.cur := rfl
@[simp] theorem State.setMode_f (s : State) (m : Mode) : (s.setMode m).f = s.f := rfl
@[simp] theorem State.setMode_fault (s : State) (m : Mode) : (s.setMode m).fault = s.fault := rfl
@[simp] theorem State.setMode_refused (s : State) (m : Mode) : (s.setMode m).refused = s.refused := rfl
@[simp] theorem State.setMode_mem (s : State) (m : Mode) : (s.setMode m).mem = s.mem := rfl
@[simp] theorem State.setMode_history (s : State) (m : Mode) : (s.setMode m).history = s.history := rfl
@[simp] theorem State.setMode_responses (s : State) (m : Mode) : (s.setMode m).responses = s.responses := rfl
@[simp] theorem State.setMode_port (s : State) (m : Mode) : (s.setMode m).port = s.port := rfl
@[simp] theorem State.setMode_collab (s : State) (m : Mode) : (s.setMode m).collab = s.collab := rfl
@[simp] theorem State.setMode_cfg (s : State) (m : Mode) : (s.setMode m).cfg = s.cfg := rfl

@[simp] theorem State.setCyc_mode (s : State) (n : Nat) : (s.setCyc n).mode = s.mode := rfl
@[simp] theorem State.setCyc_cyc (s : State) (n : Nat) : (s.setCyc n).cyc = n := rfl
@[simp] theorem State.setCyc_cur (s : State) (n : Nat) : (s.setCyc n).cur = s.cur := rfl
@[simp] theorem State.setCyc_f (s : State) (n : Nat) : (s.setCyc n).f = s.f := rfl
@[simp] theorem State.setCyc_fault (s : State) (n : Nat) : (s.setCyc n).fault = s.fault := rfl
@[simp] theorem State.setCyc_refused (s : State) (n : Nat) : (s.setCyc n).refused = s.refused := rfl
@[simp] theorem State.setCyc_mem (s : State) (n : Nat) : (s.setCyc n).mem = s.mem := rfl
@[simp] theorem State.setCyc_history (s : State) (n : Nat) : (s.setCyc n).history = s.history := rfl
@[simp] theorem State.setCyc_responses (s : State) (n : Nat) : (s.setCyc n).responses = s.responses := rfl
@[simp] theorem State.setCyc_port (s : State) (n : Nat) : (s.setCyc n).port = s.port := rfl
@[simp] theorem State.setCyc_collab (s : State) (n : Nat) : (s.setCyc n).collab = s.collab := rfl
@[simp] theorem State.setCyc_cfg (s : State) (n : Nat) : (s.setCyc n).cfg = s.cfg := rfl

@[simp] theorem State.setCur_mode (s : State) (c : Cursor) : (s.setCur c).mode = s.mode := rfl
@[simp] theorem State.setCur_cyc (s : State) (c : Cursor) : (s.setCur c).cyc = s.cyc := rfl
@[simp] theorem State.setCur_cur (s : State) (c : Cursor) : (s.setCur c).cur = c := rfl
@[simp] theorem State.setCur_f (s : State) (c : Cursor) : (s.setCur c).f = s.f := rfl
@[simp] theorem State.setCur_fault (s : State) (c : Cursor) : (s.setCur c).fault = s.fault := rfl
@[simp] theorem State.setCur_refused (s : State) (c : Cursor) : (s.setCur c).refused = s.refused := rfl
@[simp] theorem State.setCur_mem (s : State) (c : Cursor) : (s.setCur c).mem = s.mem := rfl
@[simp] theorem State.setCur_history (s : State) (c : Cursor) : (s.setCur c).history = s.history := rfl
@[simp] theorem State.setCur_responses (s : State) (c : Cursor) : (s.setCur c).responses = s.responses := rfl
@[simp] theorem State.setCur_port (s : State) (c : Cursor) : (s.setCur c).port = s.port := rfl
@[simp] theorem State.setCur_collab (s : State) (c : Cursor) : (s.setCur c).collab = s.collab := rfl
@[simp] theorem State.setCur_cfg (s : State) (c : Cursor) : (s.setCur c).cfg = s.cfg := rfl

@[simp] theorem State.setFetcher_mode (s : State) (g : Fetcher) : (s.setFetcher g).mode = s.mode := rfl
@[simp] theorem State.setFetcher_cyc (s : State) (g : Fetcher) : (s.setFetcher g).cyc = s.cyc := rfl
@[simp] theorem State.setFetcher_cur (s : State) (g : Fetcher) : (s.setFetcher g).cur = s.cur := rfl
@[simp] theorem State.setFetcher_f (s : State) (g : Fetcher) : (s.setFetcher g).f = g := rfl
@[simp] theorem State.setFetcher_fault (s : State) (g : Fetcher) : (s.setFetcher g).fault = s.fault := rfl
@[simp] theorem State.setFetcher_refused (s : State) (g : Fetcher) : (s.setFetcher g).refused = s.refused := rfl
@[simp] theorem State.setFetcher_mem (s : State) (g : Fetcher) : (s.setFetcher g).mem = s.mem := rfl
@[simp] theorem State.setFetcher_history (s : State) (g : Fetcher) : (s.setFetcher g).history = s.history := rfl
@[simp] theorem State.setFetcher_responses (s : State) (g : Fetcher) : (s.setFetcher g).responses = s.responses := rfl
@[simp] theorem State.setFetcher_port (s : State) (g : Fetcher) : (s.setFetcher g).port = s.port := rfl
@[simp] theorem State.setFetcher_collab (s : State) (g : Fetcher) : (s.setFetcher g).collab = s.collab := rfl
@[simp] theorem State.setFetcher_cfg (s : State) (g : Fetcher) : (s.setFetcher g).cfg = s.cfg := rfl

@[simp] theorem State.setFault_mode (s : State) (c : FaultCode) : (s.setFault c).mode = s.mode := rfl
@[simp] theorem State.setFault_cyc (s : State) (c : FaultCode) : (s.setFault c).cyc = s.cyc := rfl
@[simp] theorem State.setFault_cur (s : State) (c : FaultCode) : (s.setFault c).cur = s.cur := rfl
@[simp] theorem State.setFault_f (s : State) (c : FaultCode) : (s.setFault c).f = s.f := rfl
@[simp] theorem State.setFault_fault (s : State) (c : FaultCode) : (s.setFault c).fault = some c := rfl
@[simp] theorem State.setFault_refused (s : State) (c : FaultCode) : (s.setFault c).refused = s.refused := rfl
@[simp] theorem State.setFault_mem (s : State) (c : FaultCode) : (s.setFault c).mem = s.mem := rfl
@[simp] theorem State.setFault_history (s : State) (c : FaultCode) : (s.setFault c).history = s.history := rfl
@[simp] theorem State.setFault_responses (s : State) (c : FaultCode) : (s.setFault c).responses = s.responses := rfl
@[simp] theorem State.setFault_port (s : State) (c : FaultCode) : (s.setFault c).port = s.port := rfl
@[simp] theorem State.setFault_collab (s : State) (c : FaultCode) : (s.setFault c).collab = s.collab := rfl
@[simp] theorem State.setFault_cfg (s : State) (c : FaultCode) : (s.setFault c).cfg = s.cfg := rfl

@[simp] theorem State.setRefused_mode (s : State) : (s.setRefused).mode = s.mode := rfl
@[simp] theorem State.setRefused_cyc (s : State) : (s.setRefused).cyc = s.cyc := rfl
@[simp] theorem State.setRefused_cur (s : State) : (s.setRefused).cur = s.cur := rfl
@[simp] theorem State.setRefused_f (s : State) : (s.setRefused).f = s.f := rfl
@[simp] theorem State.setRefused_fault (s : State) : (s.setRefused).fault = s.fault := rfl
@[simp] theorem State.setRefused_refused (s : State) : (s.setRefused).refused = true := rfl
@[simp] theorem State.setRefused_mem (s : State) : (s.setRefused).mem = s.mem := rfl
@[simp] theorem State.setRefused_history (s : State) : (s.setRefused).history = s.history := rfl
@[simp] theorem State.setRefused_responses (s : State) : (s.setRefused).responses = s.responses := rfl
@[simp] theorem State.setRefused_port (s : State) : (s.setRefused).port = s.port := rfl
@[simp] theorem State.setRefused_collab (s : State) : (s.setRefused).collab = s.collab := rfl
@[simp] theorem State.setRefused_cfg (s : State) : (s.setRefused).cfg = s.cfg := rfl

@[simp] theorem State.setMem_mode (s : State) (m : Memory) : (s.setMem m).mode = s.mode := rfl
@[simp] theorem State.setMem_cyc (s : State) (m : Memory) : (s.setMem m).cyc = s.cyc := rfl
@[simp] theorem State.setMem_cur (s : State) (m : Memory) : (s.setMem m).cur = s.cur := rfl
@[simp] theorem State.setMem_f (s : State) (m : Memory) : (s.setMem m).f = s.f := rfl
@[simp] theorem State.setMem_fault (s : State) (m : Memory) : (s.setMem m).fault = s.fault := rfl
@[simp] theorem State.setMem_refused (s : State) (m : Memory) : (s.setMem m).refused = s.refused := rfl
@[simp] theorem State.setMem_mem (s : State) (m : Memory) : (s.setMem m).mem = m := rfl
@[simp] theorem State.setMem_history (s : State) (m : Memory) : (s.setMem m).history = s.history := rfl
@[simp] theorem State.setMem_responses (s : State) (m : Memory) : (s.setMem m).responses = s.responses := rfl
@[simp] theorem State.setMem_port (s : State) (m : Memory) : (s.setMem m).port = s.port := rfl
@[simp] theorem State.setMem_collab (s : State) (m : Memory) : (s.setMem m).collab = s.collab := rfl
@[simp] theorem State.setMem_cfg (s : State) (m : Memory) : (s.setMem m).cfg = s.cfg := rfl

@[simp] theorem State.log_mode (s : State) (e : Event) : (s.log e).mode = s.mode := rfl
@[simp] theorem State.log_cyc (s : State) (e : Event) : (s.log e).cyc = s.cyc := rfl
@[simp] theorem State.log_cur (s : State) (e : Event) : (s.log e).cur = s.cur := rfl
@[simp] theorem State.log_f (s : State) (e : Event) : (s.log e).f = s.f := rfl
@[simp] theorem State.log_fault (s : State) (e : Event) : (s.log e).fault = s.fault := rfl
@[simp] theorem State.log_refused (s : State) (e : Event) : (s.log e).refused = s.refused := rfl
@[simp] theorem State.log_mem (s : State) (e : Event) : (s.log e).mem = s.mem := rfl
@[simp] theorem State.log_history (s : State) (e : Event) : (s.log e).history = s.history ++ [e] := rfl
@[simp] theorem State.log_responses (s : State) (e : Event) : (s.log e).responses = s.responses := rfl
@[simp] theorem State.log_port (s : State) (e : Event) : (s.log e).port = s.port := rfl
@[simp] theorem State.log_collab (s : State) (e : Event) : (s.log e).collab = s.collab := rfl
@[simp] theorem State.log_cfg (s : State) (e : Event) : (s.log e).cfg = s.cfg := rfl

@[simp] theorem State.respond_mode (s : State) (w : Word) : (s.respond w).mode = s.mode := rfl
@[simp] theorem State.respond_cyc (s : State) (w : Word) : (s.respond w).cyc = s.cyc := rfl
@[simp] theorem State.respond_cur (s : State) (w : Word) : (s.respond w).cur = s.cur := rfl
@[simp] theorem State.respond_f (s : State) (w : Word) : (s.respond w).f = s.f := rfl
@[simp] theorem State.respond_fault (s : State) (w : Word) : (s.respond w).fault = s.fault := rfl
@[simp] theorem State.respond_refused (s : State) (w : Word) : (s.respond w).refused = s.refused := rfl
@[simp] theorem State.respond_mem (s : State) (w : Word) : (s.respond w).mem = s.mem := rfl
@[simp] theorem State.respond_history (s : State) (w : Word) : (s.respond w).history = s.history := rfl
@[simp] theorem State.respond_responses (s : State) (w : Word) : (s.respond w).responses = s.responses ++ [w] := rfl
@[simp] theorem State.respond_port (s : State) (w : Word) : (s.respond w).port = s.port := rfl
@[simp] theorem State.respond_collab (s : State) (w : Word) : (s.respond w).collab = s.collab := rfl
@[simp] theorem State.respond_cfg (s : State) (w : Word) : (s.respond w).cfg = s.cfg := rfl

@[simp] theorem State.setPort_mode (s : State) (p : List HostMove) : (s.setPort p).mode = s.mode := rfl
@[simp] theorem State.setPort_cyc (s : State) (p : List HostMove) : (s.setPort p).cyc = s.cyc := rfl
@[simp] theorem State.setPort_cur (s : State) (p : List HostMove) : (s.setPort p).cur = s.cur := rfl
@[simp] theorem State.setPort_f (s : State) (p : List HostMove) : (s.setPort p).f = s.f := rfl
@[simp] theorem State.setPort_fault (s : State) (p : List HostMove) : (s.setPort p).fault = s.fault := rfl
@[simp] theorem State.setPort_refused (s : State) (p : List HostMove) : (s.setPort p).refused = s.refused := rfl
@[simp] theorem State.setPort_mem (s : State) (p : List HostMove) : (s.setPort p).mem = s.mem := rfl
@[simp] theorem State.setPort_history (s : State) (p : List HostMove) : (s.setPort p).history = s.history := rfl
@[simp] theorem State.setPort_responses (s : State) (p : List HostMove) : (s.setPort p).responses = s.responses := rfl
@[simp] theorem State.setPort_port (s : State) (p : List HostMove) : (s.setPort p).port = p := rfl
@[simp] theorem State.setPort_collab (s : State) (p : List HostMove) : (s.setPort p).collab = s.collab := rfl
@[simp] theorem State.setPort_cfg (s : State) (p : List HostMove) : (s.setPort p).cfg = s.cfg := rfl

@[simp] theorem State.setCollab_mode (s : State) (c : Collaborators) : (s.setCollab c).mode = s.mode := rfl
@[simp] theorem State.setCollab_cyc (s : State) (c : Collaborators) : (s.setCollab c).cyc = s.cyc := rfl
@[simp] theorem State.setCollab_cur (s : State) (c : Collaborators) : (s.setCollab c).cur = s.cur := rfl
@[simp] theorem State.setCollab_f (s : State) (c : Collaborators) : (s.setCollab c).f = s.f := rfl
@[simp] theorem State.setCollab_fault (s : State) (c : Collaborators) : (s.setCollab c).fault = s.fault := rfl
@[simp] theorem State.setCollab_refused (s : State) (c : Collaborators) : (s.setCollab c).refused = s.refused := rfl
@[simp] theorem State.setCollab_mem (s : State) (c : Collaborators) : (s.setCollab c).mem = s.mem := rfl
@[simp] theorem State.setCollab_history (s : State) (c : Collaborators) : (s.setCollab c).history = s.history := rfl
@[simp] theorem State.setCollab_responses (s : State) (c : Collaborators) : (s.setCollab c).responses = s.responses := rfl
@[simp] theorem State.setCollab_port (s : State) (c : Collaborators) : (s.setCollab c).port = s.port := rfl
@[simp] theorem State.setCollab_collab (s : State) (c : Collaborators) : (s.setCollab c).collab = c := rfl
@[simp] theorem State.setCollab_cfg (s : State) (c : Collaborators) : (s.setCollab c).cfg = s.cfg := rfl

@[simp] theorem setRow_mode (s : State) (r : Nat) : (setRow r s).mode = s.mode := rfl
@[simp] theorem setRow_cyc (s : State) (r : Nat) : (setRow r s).cyc = s.cyc := rfl
@[simp] theorem setRow_cur (s : State) (r : Nat) : (setRow r s).cur = { s.cur with row := r } := rfl
@[simp] theorem setRow_f (s : State) (r : Nat) : (setRow r s).f = s.f := rfl
@[simp] theorem setRow_fault (s : State) (r : Nat) : (setRow r s).fault = s.fault := rfl
@[simp] theorem setRow_refused (s : State) (r : Nat) : (setRow r s).refused = s.refused := rfl
@[simp] theorem setRow_mem (s : State) (r : Nat) : (setRow r s).mem = s.mem := rfl
@[simp] theorem setRow_history (s : State) (r : Nat) : (setRow r s).history = s.history := rfl
@[simp] theorem setRow_responses (s : State) (r : Nat) : (setRow r s).responses = s.responses := rfl
@[simp] theorem setRow_port (s : State) (r : Nat) : (setRow r s).port = s.port := rfl
@[simp] theorem setRow_collab (s : State) (r : Nat) : (setRow r s).collab = s.collab := rfl
@[simp] theorem setRow_cfg (s : State) (r : Nat) : (setRow r s).cfg = s.cfg := rfl

@[simp] theorem setCol_mode (s : State) (c : Nat) : (setCol c s).mode = s.mode := rfl
@[simp] theorem setCol_cyc (s : State) (c : Nat) : (setCol c s).cyc = s.cyc := rfl
@[simp] theorem setCol_cur (s : State) (c : Nat) : (setCol c s).cur = { s.cur with col := c } := rfl
@[simp] theorem setCol_f (s : State) (c : Nat) : (setCol c s).f = s.f := rfl
@[simp] theorem setCol_fault (s : State) (c : Nat) : (setCol c s).fault = s.fault := rfl
@[simp] theorem setCol_refused (s : State) (c : Nat) : (setCol c s).refused = s.refused := rfl
@[simp] theorem setCol_mem (s : State) (c : Nat) : (setCol c s).mem = s.mem := rfl
@[simp] theorem setCol_history (s : State) (c : Nat) : (setCol c s).history = s.history := rfl
@[simp] theorem setCol_responses (s : State) (c : Nat) : (setCol c s).responses = s.responses := rfl
@[simp] theorem setCol_port (s : State) (c : Nat) : (setCol c s).port = s.port := rfl
@[simp] theorem setCol_collab (s : State) (c : Nat) : (setCol c s).collab = s.collab := rfl
@[simp] theorem setCol_cfg (s : State) (c : Nat) : (setCol c s).cfg = s.cfg := rfl

@[simp] theorem setFrameReady_mode (s : State) (b : Bool) : (setFrameReady b s).mode = s.mode := rfl
@[simp] theorem setFrameReady_cyc (s : State) (b : Bool) : (setFrameReady b s).cyc = s.cyc := rfl
@[simp] theorem setFrameReady_cur (s : State) (b : Bool) : (setFrameReady b s).cur = { s.cur with frameReady := b } := rfl
@[simp] theorem setFrameReady_f (s : State) (b : Bool) : (setFrameReady b s).f = s.f := rfl
@[simp] theorem setFrameReady_fault (s : State) (b : Bool) : (setFrameReady b s).fault = s.fault := rfl
@[simp] theorem setFrameReady_refused (s : State) (b : Bool) : (setFrameReady b s).refused = s.refused := rfl
@[simp] theorem setFrameReady_mem (s : State) (b : Bool) : (setFrameReady b s).mem = s.mem := rfl
@[simp] theorem setFrameReady_history (s : State) (b : Bool) : (setFrameReady b s).history = s.history := rfl
@[simp] theorem setFrameReady_responses (s : State) (b : Bool) : (setFrameReady b s).responses = s.responses := rfl
@[simp] theorem setFrameReady_port (s : State) (b : Bool) : (setFrameReady b s).port = s.port := rfl
@[simp] theorem setFrameReady_collab (s : State) (b : Bool) : (setFrameReady b s).collab = s.collab := rfl
@[simp] theorem setFrameReady_cfg (s : State) (b : Bool) : (setFrameReady b s).cfg = s.cfg := rfl

@[simp] theorem restoreRecord_mode (pre s : State) : (restoreRecord pre s).mode = pre.mode := rfl
@[simp] theorem restoreRecord_cyc (pre s : State) : (restoreRecord pre s).cyc = pre.cyc := rfl
@[simp] theorem restoreRecord_cur (pre s : State) : (restoreRecord pre s).cur = pre.cur := rfl
@[simp] theorem restoreRecord_f (pre s : State) : (restoreRecord pre s).f = pre.f := rfl
@[simp] theorem restoreRecord_fault (pre s : State) : (restoreRecord pre s).fault = pre.fault := rfl
@[simp] theorem restoreRecord_refused (pre s : State) : (restoreRecord pre s).refused = pre.refused := rfl
@[simp] theorem restoreRecord_mem (pre s : State) : (restoreRecord pre s).mem = s.mem := rfl
@[simp] theorem restoreRecord_history (pre s : State) : (restoreRecord pre s).history = s.history := rfl
@[simp] theorem restoreRecord_responses (pre s : State) : (restoreRecord pre s).responses = s.responses := rfl
@[simp] theorem restoreRecord_port (pre s : State) : (restoreRecord pre s).port = s.port := rfl
@[simp] theorem restoreRecord_collab (pre s : State) : (restoreRecord pre s).collab = s.collab := rfl
@[simp] theorem restoreRecord_cfg (pre s : State) : (restoreRecord pre s).cfg = s.cfg := rfl

end Sys2Proof.Machine
end

