-- ==== Sys2Proof/Laws/Ops.lean ====
section
/-! SUPPORT. One lemma for each shared operation of Machine/Ops.lean and Machine/Flags.lean that says all it does. -/

namespace Sys2Proof.Machine

/-! ## How a command ends -/

theorem whenRunning_of_running {s : State} (h : s.Running) (k : State → Host.Outcome State Fault Refusal) :
    whenRunning s k = k s := by
  simp [whenRunning, h.no_fault, h.no_refusal]

/-- A next state comes only from a running state, and is the body's. -/
theorem whenRunning_next {s t : State} {k : State → Host.Outcome State Fault Refusal}
    (h : whenRunning s k = .next t) : s.Running ∧ k s = .next t := by
  unfold whenRunning at h
  split at h
  · cases h
  · split at h
    · cases h
    · exact ⟨⟨‹_›, by simpa using ‹¬s.refused = true›⟩, h⟩

theorem runCommand_of_running {s : State} (h : s.Running) (body : State → Flow) :
    runCommand s body = .next (settle s (body s)) := whenRunning_of_running h _

theorem runCommand_next {s t : State} {body : State → Flow} (h : runCommand s body = .next t) :
    s.Running ∧ t = settle s (body s) := by
  obtain ⟨hr, h⟩ := whenRunning_next h
  exact ⟨hr, by cases h; rfl⟩

@[simp] theorem settle_go (pre s : State) : settle pre (.go s) = s := rfl
@[simp] theorem settle_raise (pre s : State) (c : FaultCode) : settle pre (.raise c s) = s.setFault c := rfl
@[simp] theorem settle_refuse (pre s : State) (r : RefuseReason) :
    settle pre (.refuse r s) = (restoreRecord pre s).setRefused := rfl

@[simp] theorem Flow.andThen_go (s : State) (k : State → Flow) : (Flow.go s).andThen k = k s := rfl
@[simp] theorem Flow.andThen_raise (c : FaultCode) (s : State) (k : State → Flow) :
    (Flow.raise c s).andThen k = .raise c s := rfl
@[simp] theorem Flow.andThen_refuse (r : RefuseReason) (s : State) (k : State → Flow) :
    (Flow.refuse r s).andThen k = .refuse r s := rfl

/-- A property of the state a flow holds, whether it goes on, faults or is refused. -/
def Flow.All (P : State → Prop) : Flow → Prop
  | .go s      => P s
  | .raise _ s => P s
  | .refuse _ s => P s

@[simp] theorem Flow.all_go {P : State → Prop} {s : State} : (Flow.go s).All P ↔ P s := Iff.rfl
@[simp] theorem Flow.all_raise {P : State → Prop} {c : FaultCode} {s : State} : (Flow.raise c s).All P ↔ P s := Iff.rfl
@[simp] theorem Flow.all_refuse {P : State → Prop} {r : RefuseReason} {s : State} : (Flow.refuse r s).All P ↔ P s :=
  Iff.rfl

theorem Flow.All.imp {P Q : State → Prop} {x : Flow} (h : x.All P) (hpq : ∀ s, P s → Q s) : x.All Q := by
  cases x <;> simp_all

/-- What holds of the first procedure's states passes to the sequence's. -/
theorem Flow.All.andThen {P Q : State → Prop} {x : Flow} {k : State → Flow} (h : x.All P)
    (hq : ∀ s, P s → Q s) (hk : ∀ s, P s → (k s).All Q) : (x.andThen k).All Q := by
  cases x with
  | go s => exact hk s h
  | raise c s => exact hq s h
  | refuse r s => exact hq s h

/-- The faults a flow can raise. -/
def Flow.Raises (C : FaultCode → Prop) : Flow → Prop
  | .go _      => True
  | .raise c _ => C c
  | .refuse _ _ => True

@[simp] theorem Flow.raises_go {C : FaultCode → Prop} {s : State} : (Flow.go s).Raises C ↔ True := Iff.rfl
@[simp] theorem Flow.raises_raise {C : FaultCode → Prop} {c : FaultCode} {s : State} :
    (Flow.raise c s).Raises C ↔ C c := Iff.rfl
@[simp] theorem Flow.raises_refuse {C : FaultCode → Prop} {r : RefuseReason} {s : State} :
    (Flow.refuse r s).Raises C ↔ True := Iff.rfl

/-! ## Memory accesses -/

@[simp] theorem memRead_fst (a : Nat) (s : State) : (memRead a s).1 = Memory.read s.mem a := rfl
@[simp] theorem memRead_snd (a : Nat) (s : State) : (memRead a s).2 = s.log (.memRead a (Memory.read s.mem a)) := rfl

theorem memWrite_eq (a : Nat) (v : Byte) (s : State) :
    memWrite a v s = (s.setMem (Memory.write s.mem a v)).log (.memWrite a v) := rfl

theorem memRmwSet_eq (a : Nat) (mask : Byte) (s : State) :
    memRmwSet a mask s =
      ((s.log (.memRead a (Memory.read s.mem a))).setMem (Memory.write s.mem a (Memory.read s.mem a ||| mask))).log
        (.memWrite a (Memory.read s.mem a ||| mask)) := rfl

/-- The latched raise: one read of STAT when the latch is set, else that read and the two read-modify-writes. -/
theorem raiseLatched_eq (test set : Byte) (b : Fin 8) (s : State) :
    raiseLatched test set b s =
      if testMask (Memory.read s.mem s.cfg.addrStat) test
      then s.log (.memRead s.cfg.addrStat (Memory.read s.mem s.cfg.addrStat))
      else memRmwSet s.cfg.addrStat set
        (memRmwSet s.cfg.addrIf (bitMask b) (s.log (.memRead s.cfg.addrStat (Memory.read s.mem s.cfg.addrStat)))) := rfl

/-- The memory the latched raise leaves. -/
theorem raiseLatched_mem (test set : Byte) (b : Fin 8) (s : State) :
    (raiseLatched test set b s).mem =
      if testMask (Memory.read s.mem s.cfg.addrStat) test then s.mem
      else
        let m := Memory.write s.mem s.cfg.addrIf (Memory.read s.mem s.cfg.addrIf ||| bitMask b)
        Memory.write m s.cfg.addrStat (Memory.read m s.cfg.addrStat ||| set) := by
  rw [raiseLatched_eq]
  split <;> simp [memRmwSet_eq]

/-- The latched raise writes memory and the history, and nothing else. -/
theorem raiseLatched_frame (test set : Byte) (b : Fin 8) (s : State) :
    ∃ m h, raiseLatched test set b s = { s with mem := m, history := h } := by
  rw [raiseLatched_eq]
  split
  · exact ⟨s.mem, s.history ++ [_], rfl⟩
  · simp only [memRmwSet_eq, State.log, State.setMem]
    exact ⟨_, _, rfl⟩

theorem raiseLatched_wf {s : State} (h : Memory.wf s.mem = true) (test set : Byte) (b : Fin 8) :
    Memory.wf (raiseLatched test set b s).mem = true := by
  rw [raiseLatched_mem]
  split
  · exact h
  · exact Memory.wf_write (Memory.wf_write h _ _) _ _

/-! ## The collaborators' answers -/

@[simp] theorem AnswerFeed.upcoming_zero {α : Type} (free : Nat → α) (d : AnswerFeed α) :
    d.upcoming free 0 = d.answer free := by
  rcases d with ⟨_ | ⟨a, l⟩, t⟩ <;> rfl

/-- Giving one answer moves the feed on by one. -/
@[simp] theorem AnswerFeed.upcoming_advance {α : Type} (free : Nat → α) (d : AnswerFeed α) (k : Nat) :
    d.advance.upcoming free k = d.upcoming free (k + 1) := by
  rcases d with ⟨_ | ⟨a, l⟩, t⟩
  · simp [AnswerFeed.upcoming, AnswerFeed.advance, Nat.add_assoc, Nat.add_comm 1 k]
  · simp [AnswerFeed.upcoming, AnswerFeed.advance, Nat.add_assoc, Nat.add_comm 1 k]

@[simp] theorem mapBase_fst (s : State) : (mapBase s).1 = s.collab.mapBase.answer Config.freeMapBase := rfl
@[simp] theorem mapBase_snd (s : State) : (mapBase s).2 =
    (s.setCollab { s.collab with mapBase := s.collab.mapBase.advance }).log
      (.mapBase (s.collab.mapBase.answer Config.freeMapBase)) := rfl
@[simp] theorem mapTileNumberAt_fst (a : Nat) (s : State) :
    (mapTileNumberAt a s).1 = s.collab.tileNumber.answer Config.freeTileNumber := rfl
@[simp] theorem mapTileNumberAt_snd (a : Nat) (s : State) : (mapTileNumberAt a s).2 =
    (s.setCollab { s.collab with tileNumber := s.collab.tileNumber.advance }).log
      (.tileNumberAt a (s.collab.tileNumber.answer Config.freeTileNumber)) := rfl
@[simp] theorem mapTileFor_fst (i : TileIndex) (s : State) :
    (mapTileFor i s).1 = s.collab.tile.answer Config.freeTile := rfl
@[simp] theorem mapTileFor_snd (i : TileIndex) (s : State) : (mapTileFor i s).2 =
    (s.setCollab { s.collab with tile := s.collab.tile.advance }).log
      (.tileFor i (s.collab.tile.answer Config.freeTile)) := rfl
@[simp] theorem tileRowPixelsCall_fst (t : Tile) (r : Nat) (s : State) :
    (tileRowPixelsCall t r s).1 = s.collab.rowPixels.answer Config.freeRowPixels := rfl
@[simp] theorem tileRowPixelsCall_snd (t : Tile) (r : Nat) (s : State) : (tileRowPixelsCall t r s).2 =
    (s.setCollab { s.collab with rowPixels := s.collab.rowPixels.advance }).log
      (.rowPixels t r (s.collab.rowPixels.answer Config.freeRowPixels)) := rfl
@[simp] theorem pipeProcess_fst (s : State) : (pipeProcess s).1 = s.collab.pipe.answer Config.freePipeAnswer := rfl
@[simp] theorem pipeProcess_snd (s : State) : (pipeProcess s).2 =
    ((s.setCollab { s.collab with pipe := s.collab.pipe.advance }).log
      (.pipeProcess s.cur (s.collab.pipe.answer Config.freePipeAnswer))).setCur
      (colAfter s.cur (s.collab.pipe.answer Config.freePipeAnswer)) := rfl
@[simp] theorem pipeIdle_fst (s : State) : (pipeIdle s).1 = s.collab.pipeIdle.answer Config.freePipeIdle := rfl
@[simp] theorem pipeIdle_snd (s : State) : (pipeIdle s).2 =
    (s.setCollab { s.collab with pipeIdle := s.collab.pipeIdle.advance }).log
      (.pipeIdle (s.collab.pipeIdle.answer Config.freePipeIdle)) := rfl
@[simp] theorem colAfter_row (c : Cursor) (a : PipeAnswer) : (colAfter c a).row = c.row := rfl
@[simp] theorem colAfter_frameReady (c : Cursor) (a : PipeAnswer) : (colAfter c a).frameReady = c.frameReady := rfl

/-! ## The frame relation -/

theorem SameController.refl (s : State) : SameController s s := ⟨rfl, rfl, rfl, rfl, rfl, rfl, rfl, rfl⟩

theorem SameController.trans {s t u : State} (h : SameController s t) (k : SameController t u) : SameController s u :=
  ⟨k.mode.trans h.mode, k.cyc.trans h.cyc, k.row.trans h.row, k.frameReady.trans h.frameReady, k.mem.trans h.mem,
   k.responses.trans h.responses, k.port.trans h.port, k.cfg.trans h.cfg⟩

/-- `Pipe.process` writes the column, its feed and the history, and nothing else (R78). -/
theorem pipeProcess_same (s : State) : SameController s (pipeProcess s).2 := ⟨rfl, rfl, rfl, rfl, rfl, rfl, rfl, rfl⟩

/-- A move that is no command keeps the canonical form of memory. -/
theorem applyMove_wf {s : State} (h : Memory.wf s.mem = true) (m : HostMove) : Memory.wf (applyMove m s).mem = true := by
  cases m <;> first | exact h | exact Memory.wf_write h _ _

/-- INIT_REGS are laid out in canonical form. -/
theorem initMemory_wf (c : Config) (r : InitRegs) : Memory.wf (initMemory c r) = true := by
  simp only [initMemory, List.foldl]
  repeat' apply Memory.wf_write
  rfl

end Sys2Proof.Machine
end

