-- ==== Sys2Proof/Laws/Fetcher.lean ====
section
/-! SUPPORT. The Tile Fetcher: everything a fetch step can do, what it leaves alone, and that it keeps the Fetcher's
invariant and then never reads a field without a value. -/

namespace Sys2Proof.Machine

/-- What a fetch step can write: the Fetcher, the history and the collaborators' feeds. -/
structure FetchStepFrame (s t : State) : Prop where
  same    : SameController s t
  cur     : t.cur = s.cur
  fault   : t.fault = s.fault
  refused : t.refused = s.refused
  pipe    : t.collab.pipe = s.collab.pipe
  idle    : t.collab.pipeIdle = s.collab.pipeIdle

theorem FetchStepFrame.refl (s : State) : FetchStepFrame s s := ⟨.refl s, rfl, rfl, rfl, rfl, rfl⟩

theorem FetchStepFrame.setFetcher {s t : State} (h : FetchStepFrame s t) (g : Fetcher) :
    FetchStepFrame s (t.setFetcher g) :=
  ⟨⟨h.same.mode, h.same.cyc, h.same.row, h.same.frameReady, h.same.mem, h.same.responses, h.same.port, h.same.cfg⟩,
   h.cur, h.fault, h.refused, h.pipe, h.idle⟩

theorem FetchStepFrame.log {s t : State} (h : FetchStepFrame s t) (e : Event) : FetchStepFrame s (t.log e) :=
  ⟨⟨h.same.mode, h.same.cyc, h.same.row, h.same.frameReady, h.same.mem, h.same.responses, h.same.port, h.same.cfg⟩,
   h.cur, h.fault, h.refused, h.pipe, h.idle⟩

theorem FetchStepFrame.setCollab {s t : State} (h : FetchStepFrame s t) {c : Collaborators}
    (hp : c.pipe = t.collab.pipe) (hi : c.pipeIdle = t.collab.pipeIdle) : FetchStepFrame s (t.setCollab c) :=
  ⟨⟨h.same.mode, h.same.cyc, h.same.row, h.same.frameReady, h.same.mem, h.same.responses, h.same.port, h.same.cfg⟩,
   h.cur, h.fault, h.refused, hp.trans h.pipe, hi.trans h.idle⟩

/-- READ_TILE_NUM's writes (R142). -/
theorem readTileNum_eq (s : State) :
    readTileNum s =
      let scx := Memory.read s.mem s.cfg.addrScx
      let scy := Memory.read s.mem s.cfg.addrScy
      let base := s.collab.mapBase.answer Config.freeMapBase
      let i := s.collab.tileNumber.answer Config.freeTileNumber
      { s with
        f := { s.f with tileX := s.f.tileX + 8, tileIndex := some i }
        history := s.history ++ [.memRead s.cfg.addrScx scx, .memRead s.cfg.addrScy scy, .mapBase base,
          .tileNumberAt (fetchAddr s scx scy base) i]
        collab := { s.collab with
          mapBase := s.collab.mapBase.advance, tileNumber := s.collab.tileNumber.advance } } := by
  simp [readTileNum, setTileIndex, advanceTileX, State.setFetcher, State.log, State.setCollab, fetchAddr,
    tileCursorStep]

/-- The five ways a fetch step ends (R141-R145, R183). -/
theorem fetcherStep_cases (s : State) :
    (s.f.state = .transferReady ∧ fetcherStep s = .go s) ∨
    (s.f.state ≠ .transferReady ∧ s.f.acc + 1 < 2 ∧ fetcherStep s = .go (setAcc (s.f.acc + 1) s)) ∨
    (s.f.state = .readTileNum ∧ 2 ≤ s.f.acc + 1 ∧
      fetcherStep s = .go (setFetchState .readData0 (readTileNum (setAcc 0 s)))) ∨
    (s.f.state = .readData0 ∧ 2 ≤ s.f.acc + 1 ∧
      fetcherStep s = (readData0 (setAcc 0 s)).andThen fun t => .go (setFetchState .readData1 t)) ∨
    (s.f.state = .readData1 ∧ 2 ≤ s.f.acc + 1 ∧
      fetcherStep s = (readData1 (setAcc 0 s)).andThen fun t => .go (setFetchState .transferReady t)) := by
  unfold fetcherStep fetcherFrequency
  by_cases hw : s.f.acc + 1 < 2
  · rcases h : s.f.state <;> simp [hw]
  · rcases h : s.f.state <;> simp [hw, fetcherWork, setAcc, h, Nat.le_of_not_lt hw]

theorem readData0_cases (s : State) :
    (s.f.tileIndex = none ∧ readData0 s = .raise (.unwritten .tileIndex) s) ∨
    ∃ i, s.f.tileIndex = some i ∧ readData0 s = .go
      ((mapTileFor i s).2.setFetcher { s.f with tile := some (s.collab.tile.answer Config.freeTile) }) := by
  unfold readData0
  cases h : s.f.tileIndex with
  | none => exact .inl ⟨rfl, rfl⟩
  | some i => exact .inr ⟨i, rfl, rfl⟩

theorem readData1_cases (s : State) :
    (s.f.tile = none ∧ readData1 s = .raise (.unwritten .tile) s) ∨
    ∃ t, s.f.tile = some t ∧
      (8 < (s.collab.rowPixels.answer Config.freeRowPixels).length ∧
        readData1 s = .refuse .collaboratorAnswer (tileRowPixelsCall t (rowInTile s) s).2 ∨
       (s.collab.rowPixels.answer Config.freeRowPixels).length ≤ 8 ∧ readData1 s = .go
        ((tileRowPixelsCall t (rowInTile s) s).2.setFetcher
          { s.f with pixRow := some (s.collab.rowPixels.answer Config.freeRowPixels) })) := by
  unfold readData1
  cases h : s.f.tile with
  | none => exact .inl ⟨rfl, rfl⟩
  | some t =>
    refine .inr ⟨t, rfl, ?_⟩
    by_cases hp : 8 < (s.collab.rowPixels.answer Config.freeRowPixels).length
    · exact .inl ⟨hp, by simp [tileRowPixels, hp]⟩
    · exact .inr ⟨Nat.le_of_not_lt hp, by simp [tileRowPixels, hp]⟩

theorem readTileNum_frame {s t : State} (h : FetchStepFrame s t) : FetchStepFrame s (readTileNum t) := by
  rw [readTileNum_eq]
  exact ⟨⟨h.same.mode, h.same.cyc, h.same.row, h.same.frameReady, h.same.mem, h.same.responses, h.same.port,
    h.same.cfg⟩, h.cur, h.fault, h.refused, h.pipe, h.idle⟩

/-- A fetch step writes only the Fetcher, the history and its collaborators' feeds. -/
theorem fetcherStep_frame (s : State) : (fetcherStep s).All (FetchStepFrame s) := by
  have h0 : FetchStepFrame s (setAcc 0 s) := (FetchStepFrame.refl s).setFetcher _
  rcases fetcherStep_cases s with ⟨_, e⟩ | ⟨_, _, e⟩ | ⟨_, _, e⟩ | ⟨_, _, e⟩ | ⟨_, _, e⟩ <;> rw [e]
  · exact .refl s
  · exact (FetchStepFrame.refl s).setFetcher _
  · exact (readTileNum_frame h0).setFetcher _
  · rcases readData0_cases (setAcc 0 s) with ⟨_, e⟩ | ⟨i, _, e⟩ <;>
      simp only [e, Flow.andThen_go, Flow.andThen_raise, Flow.all_go, Flow.all_raise, mapTileFor_snd]
    · exact h0
    · exact (((h0.setCollab (by rfl) (by rfl)).log _).setFetcher _).setFetcher _
  · rcases readData1_cases (setAcc 0 s) with ⟨_, e⟩ | ⟨i, _, ⟨_, e⟩ | ⟨_, e⟩⟩ <;>
      simp only [e, Flow.andThen_go, Flow.andThen_raise, Flow.andThen_refuse, Flow.all_go, Flow.all_raise,
        Flow.all_refuse, tileRowPixelsCall_snd]
    · exact h0
    · exact (h0.setCollab (by rfl) (by rfl)).log _
    · exact (((h0.setCollab (by rfl) (by rfl)).log _).setFetcher _).setFetcher _

/-- A fetch step keeps the Fetcher's invariant, and from it raises no fault. -/
theorem fetcherStep_inv {s : State} (h : s.f.Inv) :
    (fetcherStep s).All (fun t => t.f.Inv) ∧ (fetcherStep s).Raises fun _ => False := by
  have hacc := h.acc_lt
  have h8 := h.cursor_by_8
  unfold fetcherFrequency at hacc
  unfold tileCursorStep at h8
  rcases fetcherStep_cases s with ⟨_, e⟩ | ⟨hs, ha, e⟩ | ⟨hs, _, e⟩ | ⟨hs, _, e⟩ | ⟨hs, _, e⟩ <;> rw [e]
  · exact ⟨h, trivial⟩
  · refine ⟨⟨?_, fun hr => absurd hr hs, h.index_set, h.tile_set, h.row_set, h.row_short, h.cursor_by_8⟩, trivial⟩
    simp [setAcc, fetcherFrequency]; omega
  · rw [readTileNum_eq]
    refine ⟨⟨?_, ?_, ?_, ?_, ?_, h.row_short, ?_⟩, trivial⟩ <;>
      simp [setFetchState, setAcc, fetcherFrequency, tileCursorStep, h8]
  · rcases readData0_cases (setAcc 0 s) with ⟨hn, _⟩ | ⟨i, _, e⟩
    · exact absurd hn (h.index_set hs)
    · rw [e]
      refine ⟨⟨?_, ?_, ?_, ?_, ?_, h.row_short, h.cursor_by_8⟩, trivial⟩ <;>
        simp [setFetchState, setAcc, fetcherFrequency]
  · rcases readData1_cases (setAcc 0 s) with ⟨hn, _⟩ | ⟨i, _, ⟨_, e⟩ | ⟨hl, e⟩⟩
    · exact absurd hn (h.tile_set hs)
    · rw [e]
      refine ⟨⟨?_, ?_, ?_, h.tile_set, ?_, h.row_short, h.cursor_by_8⟩, trivial⟩ <;>
        simp [setAcc, fetcherFrequency, hs]
    · rw [e]
      refine ⟨⟨?_, ?_, ?_, ?_, ?_, ?_, h.cursor_by_8⟩, trivial⟩ <;>
        simp [setFetchState, setAcc, fetcherFrequency, tileRowPixels]
      exact hl

theorem fetcherReset_inv {s : State} (h : s.f.Inv) : (fetcherReset s).f.Inv := by
  refine ⟨?_, ?_, ?_, ?_, ?_, h.row_short, ?_⟩ <;> simp [fetcherReset, fetcherFrequency, tileCursorStep]

theorem fetcherRestart_inv {s : State} (h : s.f.Inv) : (fetcherRestart s).f.Inv := by
  refine ⟨?_, ?_, ?_, ?_, ?_, h.row_short, h.cursor_by_8⟩ <;> simp [fetcherRestart, fetcherFrequency]

theorem Fetcher.reset_inv : Fetcher.reset.Inv := by
  refine ⟨?_, ?_, ?_, ?_, ?_, ?_, ?_⟩ <;> simp [Fetcher.reset, fetcherFrequency, tileCursorStep]

end Sys2Proof.Machine
end

