-- ==== Sys2Proof/Laws/ModeController.lean ====
section
/-! SUPPORT. The Mode Controller: what each arm leaves, and what the inner loop keeps. -/

namespace Sys2Proof.Machine

theorem oamArm_of_lt {s : State} (h : s.cyc < oamBudget) : oamArm s = s := by simp [oamArm, h]

/-- The OAM_SEARCH exit (R110). -/
theorem oamArm_exit {s : State} (h : oamBudget ≤ s.cyc) :
    oamArm s =
      { s with
        mode := .pixelTransfer
        cyc := s.cyc - oamBudget
        history := s.history ++ [.memRead s.cfg.addrLcdc (Memory.read s.mem s.cfg.addrLcdc),
          .findVisible s.cur.row (spriteHeight (Memory.read s.mem s.cfg.addrLcdc))] } := by
  simp [oamArm, Nat.not_lt.2 h, spritesFindVisible, State.setMode, State.setCyc, State.log]

theorem ptExit_of_lt {s : State} (h : s.cyc < ptBudget) : ptExit s = s := by simp [ptExit, h]

/-- The PIXEL_TRANSFER exit (R116). -/
theorem ptExit_exit {s : State} (h : ptBudget ≤ s.cyc) :
    ptExit s =
      { s with
        mode := .hblank
        cyc := s.cyc - ptBudget
        f := { s.f with state := .readTileNum, tileX := 0, acc := 0 }
        history := s.history ++ [.pipeReset] } := by
  simp [ptExit, Nat.not_lt.2 h, pipeReset, fetcherReset, State.setFetcher, State.setMode, State.setCyc, State.log]

theorem hblankArm_of_lt {s : State} (h : s.cyc < hblankBudget) : hblankArm s = s := by simp [hblankArm, h]

/-- The HBLANK exit (R117, R119, R120). -/
theorem hblankArm_exit {s : State} (h : hblankBudget ≤ s.cyc) :
    hblankArm s =
      let r := raiseLatched s.cfg.statM0Test s.cfg.statM0Set s.cfg.irq.lcdcStat.bit s
      { s with
        mode := if s.cfg.visibleRows ≤ s.cur.row + 1 then .vblank else .oamSearch
        cyc := s.cyc - hblankBudget
        cur := { s.cur with row := s.cur.row + 1, col := 0 }
        mem := Memory.write r.mem s.cfg.addrLy (lyByte s)
        history := r.history ++ [.memWrite s.cfg.addrLy (lyByte s)] } := by
  obtain ⟨m, g, e⟩ := raiseLatched_frame s.cfg.statM0Test s.cfg.statM0Set s.cfg.irq.lcdcStat.bit s
  simp [hblankArm, Nat.not_lt.2 h, e, memWrite_eq, setRow, setCol, State.setCur, State.setMode, State.setCyc,
    State.setMem, State.log, lyByte]

theorem vblankArm_of_lt {s : State} (h : s.cyc < vblankLineBudget) : vblankArm s = s := by simp [vblankArm, h]

/-- A VBLANK line exit (R121, R122). -/
theorem vblankArm_exit {s : State} (h : vblankLineBudget ≤ s.cyc) :
    vblankArm s =
      let r := raiseLatched s.cfg.statM1Test s.cfg.statM1Set s.cfg.irq.vblank.bit s
      let wraps := s.cfg.visibleRows + 9 < s.cur.row + 1
      { s with
        mode := if wraps then .oamSearch else s.mode
        cyc := s.cyc - vblankLineBudget
        cur := { s.cur with
          row := if wraps then 0 else s.cur.row + 1
          frameReady := if wraps then true else s.cur.frameReady }
        mem := Memory.write r.mem s.cfg.addrLy (lyByte s)
        history := r.history ++ [.memWrite s.cfg.addrLy (lyByte s)] } := by
  obtain ⟨m, g, e⟩ := raiseLatched_frame s.cfg.statM1Test s.cfg.statM1Set s.cfg.irq.vblank.bit s
  by_cases hw : s.cfg.visibleRows + 9 < s.cur.row + 1
  · simp [vblankArm, Nat.not_lt.2 h, e, memWrite_eq, setRow, State.setCur, State.setMode, State.setCyc,
      State.setMem, State.log, lyByte, frameWrap, vblankLines, setFrameReady, hw]
  · simp [vblankArm, Nat.not_lt.2 h, e, memWrite_eq, setRow, State.setCur, State.setCyc,
      State.setMem, State.log, lyByte, frameWrap, vblankLines, hw]

/-- The four ways step (c) of the inner loop ends (R115). -/
theorem handOff_cases (s : State) :
    (s.f.state ≠ .transferReady ∧ handOff s = .go s) ∨
    (s.f.state = .transferReady ∧ (s.collab.pipeIdle.answer Config.freePipeIdle) = false ∧
      handOff s = .go (pipeIdle s).2) ∨
    (s.f.state = .transferReady ∧ (s.collab.pipeIdle.answer Config.freePipeIdle) = true ∧ s.f.pixRow = none ∧
      handOff s = .raise (.unwritten .pixRow) (pipeIdle s).2) ∨
    (s.f.state = .transferReady ∧ (s.collab.pipeIdle.answer Config.freePipeIdle) = true ∧ ∃ p, s.f.pixRow = some p ∧
      handOff s = .go (fetcherRestart (pipeLoad p (pipeIdle s).2))) := by
  unfold handOff
  by_cases hs : s.f.state = .transferReady
  · cases hb : s.collab.pipeIdle.answer Config.freePipeIdle
    · simp [hs, hb]
    · cases hp : s.f.pixRow <;> simp [hs, hb, hp]
  · simp [hs]

/-- Step (c) writes only the Fetcher, the idle feed and the history. -/
theorem handOff_same (s : State) : (handOff s).All fun t => SameController s t ∧ t.cur = s.cur := by
  rcases handOff_cases s with ⟨_, e⟩ | ⟨_, _, e⟩ | ⟨_, _, _, e⟩ | ⟨_, _, p, _, e⟩ <;> rw [e]
  · exact ⟨.refl s, rfl⟩
  all_goals exact ⟨⟨rfl, rfl, rfl, rfl, rfl, rfl, rfl, rfl⟩, rfl⟩

/-- Step (c) keeps the Fetcher's invariant, and from it raises no fault. -/
theorem handOff_inv {s : State} (h : s.f.Inv) :
    (handOff s).All (fun t => t.f.Inv) ∧ (handOff s).Raises fun _ => False := by
  rcases handOff_cases s with ⟨_, e⟩ | ⟨_, _, e⟩ | ⟨hs, _, hn, _⟩ | ⟨_, _, p, _, e⟩
  · rw [e]; exact ⟨h, trivial⟩
  · rw [e]; exact ⟨h, trivial⟩
  · exact absurd hn (h.row_set hs)
  · rw [e]; exact ⟨fetcherRestart_inv (s := pipeLoad p (pipeIdle s).2) h, trivial⟩

/-- One turn of the inner loop, unfolded (R112). -/
theorem innerLoop_succ (n fuel : Nat) (rem : Int) (s : State) :
    innerLoop n (fuel + 1) rem s =
      if 0 < rem then
        if (s.collab.pipe.answer Config.freePipeAnswer).cost = 0 then .raise (.pipeZeroCost n rem) (pipeProcess s).2
        else (fetcherStep (pipeProcess s).2).andThen fun t => (handOff t).andThen fun u =>
          innerLoop n fuel (rem - (s.collab.pipe.answer Config.freePipeAnswer).cost) u
      else .go s := rfl

/-- A property the three steps of a turn keep holds wherever the inner loop ends. -/
theorem innerLoop_all {P : State → Prop} (hp : ∀ s, P s → P (pipeProcess s).2)
    (hf : ∀ s, P s → (fetcherStep s).All P) (hh : ∀ s, P s → (handOff s).All P) (n fuel : Nat) :
    ∀ (rem : Int) (s : State), P s → (innerLoop n fuel rem s).All P := by
  induction fuel with
  | zero => exact fun rem s h => h
  | succ fuel ih =>
    intro rem s h
    rw [innerLoop_succ]
    split
    · split
      · exact hp s h
      · exact (hf _ (hp s h)).andThen (fun _ => id) fun t ht => (hh t ht).andThen (fun _ => id) fun u hu => ih _ u hu
    · exact h

/-- The inner loop leaves the controller, the memory and the port alone (R112). -/
theorem innerLoop_same (n fuel : Nat) (rem : Int) (s : State) : (innerLoop n fuel rem s).All (SameController s) :=
  innerLoop_all (P := SameController s) (fun t h => h.trans (pipeProcess_same t))
    (fun t h => (fetcherStep_frame t).imp fun _ k => h.trans k.same)
    (fun t h => (handOff_same t).imp fun _ k => h.trans k.1) n fuel rem s (.refl s)

/-- The inner loop keeps the Fetcher's invariant. -/
theorem innerLoop_inv {s : State} (h : s.f.Inv) (n fuel : Nat) (rem : Int) :
    (innerLoop n fuel rem s).All fun t => t.f.Inv :=
  innerLoop_all (P := fun t => t.f.Inv) (fun _ h => h) (fun _ h => (fetcherStep_inv h).1) (fun _ h => (handOff_inv h).1)
    n fuel rem s h

end Sys2Proof.Machine
end

