-- ==== Sys2Proof/Laws/Dispatch.lean ====
section
/-! SUPPORT. Every command in one form: its procedure, run from a running state and settled. -/

namespace Sys2Proof.Machine

/-- The procedure of each command. -/
def commandBody : Instr → State → Flow
  | .tick n,         s => modeArm n (s.setCyc (s.cyc + n))
  | .fproc,          s => fetcherStep s
  | .freset,         s => .go (fetcherReset s)
  | .resolve req en, s => .go (s.respond (responseWord s.cfg.irq (resolveKind s.cfg.irq req en)))
  | .reset,          s => .go (blockReset s)

theorem exec_eq_runCommand (i : Instr) (s : State) : exec i s = runCommand s (commandBody i) := by
  cases i <;> rfl

/-- A running state has a next state under every command. -/
theorem exec_of_running {s : State} (h : s.Running) (i : Instr) : exec i s = .next (settle s (commandBody i s)) := by
  rw [exec_eq_runCommand, runCommand_of_running h]

/-- A next state comes only from a running state, and is its procedure's, settled. -/
theorem exec_next {i : Instr} {s t : State} (h : exec i s = .next t) :
    s.Running ∧ t = settle s (commandBody i s) := by
  rw [exec_eq_runCommand] at h
  exact runCommand_next h

/-- What holds of the state a flow holds, and is kept by the marks, holds of the settled state. -/
theorem settle_of_all {P : State → Prop} {pre : State} {x : Flow} (h : x.All P) (hr : ∀ t, P t → P (restoreRecord pre t).setRefused)
    (hf : ∀ t c, P t → P (t.setFault c)) : P (settle pre x) := by
  cases x with
  | go t => exact h
  | raise c t => exact hf t c h
  | refuse r t => exact hr t h

/-- RESET's writes (R200). -/
theorem blockReset_eq (s : State) : blockReset s =
    { s with mode := .oamSearch, cyc := 0, cur := .reset, f := .reset, history := s.history ++ [.pipeReset] } := rfl

end Sys2Proof.Machine
end

