-- ==== Sys2Proof/Laws/Commands.lean ====
section
/-! SUPPORT. Inversion lemmas for whole commands: what a TICK can end in, what every command leaves alone, and what the
two arms that write memory leave in the registers. -/

namespace Sys2Proof.Machine

/-! ## Marks: while a command runs, nothing touches the fault and the refused mark -/

theorem fetcherStep_marks {s : State} (hs : s.Running) : (fetcherStep s).All State.Running :=
  (fetcherStep_frame s).imp fun _ h => ⟨h.fault.trans hs.1, h.refused.trans hs.2⟩

theorem handOff_marks {s : State} (hs : s.Running) : (handOff s).All State.Running := by
  rcases handOff_cases s with ⟨_, e⟩ | ⟨_, _, e⟩ | ⟨_, _, _, e⟩ | ⟨_, _, p, _, e⟩ <;> rw [e] <;> exact ⟨hs.1, hs.2⟩

theorem innerLoop_marks {s : State} (hs : s.Running) (n fuel : Nat) (rem : Int) :
    (innerLoop n fuel rem s).All State.Running :=
  innerLoop_all (P := State.Running) (fun _ h => ⟨h.1, h.2⟩) (fun _ => fetcherStep_marks) (fun _ => handOff_marks)
    n fuel rem s hs

/-- The state a command's procedure ends in carries no mark: marks come from settling alone. -/
theorem commandBody_marks {s : State} (hs : s.Running) (i : Instr) : (commandBody i s).All State.Running := by
  have hc : ∀ n, (s.setCyc n).Running := fun _ => ⟨hs.1, hs.2⟩
  cases i with
  | tick n =>
    simp only [commandBody, modeArm]
    split
    · rcases Nat.lt_or_ge (s.setCyc (s.cyc + n)).cyc oamBudget with h | h
      · rw [oamArm_of_lt h]; exact hc _
      · rw [oamArm_exit h]; exact ⟨hs.1, hs.2⟩
    · refine Flow.All.andThen (innerLoop_marks (hc _) n n n) (fun _ h => h) fun t ht => ?_
      rcases Nat.lt_or_ge t.cyc ptBudget with h | h
      · rw [ptExit_of_lt h]; exact ht
      · rw [ptExit_exit h]; exact ⟨ht.1, ht.2⟩
    · rcases Nat.lt_or_ge (s.setCyc (s.cyc + n)).cyc hblankBudget with h | h
      · rw [hblankArm_of_lt h]; exact hc _
      · rw [hblankArm_exit h]; exact ⟨hs.1, hs.2⟩
    · rcases Nat.lt_or_ge (s.setCyc (s.cyc + n)).cyc vblankLineBudget with h | h
      · rw [vblankArm_of_lt h]; exact hc _
      · rw [vblankArm_exit h]; exact ⟨hs.1, hs.2⟩
  | fproc => exact fetcherStep_marks hs
  | freset => exact ⟨hs.1, hs.2⟩
  | resolve req en => exact ⟨hs.1, hs.2⟩
  | reset => exact ⟨hs.1, hs.2⟩

/-! ## What a TICK ends in -/

/-- Outside PIXEL_TRANSFER a TICK counts, or counts and makes its mode's exit. -/
theorem tick_cases {n : Nat} {s t : State} (h : exec (.tick n) s = .next t) (hm : s.mode ≠ .pixelTransfer) :
    (s.cyc + n < modeBudget s.mode ∧ t = s.setCyc (s.cyc + n)) ∨
    (modeBudget s.mode ≤ s.cyc + n ∧
      ((s.mode = .oamSearch ∧ t = oamArm (s.setCyc (s.cyc + n))) ∨
       (s.mode = .hblank ∧ t = hblankArm (s.setCyc (s.cyc + n))) ∨
       (s.mode = .vblank ∧ t = vblankArm (s.setCyc (s.cyc + n))))) := by
  obtain ⟨_, rfl⟩ := exec_next h
  rcases Nat.lt_or_ge (s.cyc + n) (modeBudget s.mode) with hc | hc
  · refine .inl ⟨hc, ?_⟩
    cases hmm : s.mode <;> rw [hmm] at hc <;> simp only [commandBody, modeArm, State.setCyc_mode, hmm, settle_go]
    · rw [hblankArm_of_lt hc]
    · rw [vblankArm_of_lt hc]
    · rw [oamArm_of_lt hc]
    · exact absurd hmm hm
  · refine .inr ⟨hc, ?_⟩
    cases hmm : s.mode <;> simp_all [commandBody, modeArm]

/-- In PIXEL_TRANSFER the inner loop runs, then the exit test, unless the loop faults or refuses; the loop leaves the
controller's own state alone. -/
theorem tick_pixelTransfer_cases (n : Nat) {s : State} (hm : s.mode = .pixelTransfer) :
    (∃ t, innerLoop n n n (s.setCyc (s.cyc + n)) = .go t ∧ SameController (s.setCyc (s.cyc + n)) t ∧
      commandBody (.tick n) s = .go (ptExit t)) ∨
    (∃ c t, innerLoop n n n (s.setCyc (s.cyc + n)) = .raise c t ∧ SameController (s.setCyc (s.cyc + n)) t ∧
      commandBody (.tick n) s = .raise c t) ∨
    (∃ r t, innerLoop n n n (s.setCyc (s.cyc + n)) = .refuse r t ∧ SameController (s.setCyc (s.cyc + n)) t ∧
      commandBody (.tick n) s = .refuse r t) := by
  have h := innerLoop_same n n n (s.setCyc (s.cyc + n))
  simp only [commandBody, modeArm, State.setCyc_mode, hm, ptArm]
  cases e : innerLoop n n n (s.setCyc (s.cyc + n)) with
  | go t => rw [e] at h; exact .inl ⟨t, rfl, h, rfl⟩
  | raise c t => rw [e] at h; exact .inr (.inl ⟨c, t, rfl, h, rfl⟩)
  | refuse r t => rw [e] at h; exact .inr (.inr ⟨r, t, rfl, h, rfl⟩)

/-! ## The two arms that write memory -/

/-- Outside IF, STAT and LY an exit with a latched raise and an LY write leaves every byte. -/
theorem raise_then_ly_read (test set : Byte) (b : Fin 8) {s : State} (hw : Memory.wf s.mem = true) (v : Byte) {a : Nat}
    (h1 : a ≠ s.cfg.addrIf) (h2 : a ≠ s.cfg.addrStat) (h3 : a ≠ s.cfg.addrLy) :
    Memory.read (Memory.write (raiseLatched test set b s).mem s.cfg.addrLy v) a = Memory.read s.mem a := by
  rw [Memory.read_write_other (raiseLatched_wf hw _ _ _) h3, raiseLatched_mem]
  split
  · rfl
  · simp only []
    rw [Memory.read_write_other (Memory.wf_write hw _ _) h2, Memory.read_write_other hw h1]

/-- The register addresses the block writes are distinct, and none is IE's (D9). -/
theorem written_addrs_distinct {c : Config} (h : c.Wf) :
    c.addrIf ≠ c.addrStat ∧ c.addrIf ≠ c.addrLy ∧ c.addrStat ≠ c.addrLy ∧
    c.addrIe ≠ c.addrIf ∧ c.addrIe ≠ c.addrStat ∧ c.addrIe ≠ c.addrLy := by
  have := h.addrs_distinct
  simp [Config.regAddrs] at this
  tauto

end Sys2Proof.Machine
end

