-- ==== Sys2Proof/Laws/Encoding.lean ====
section
/-! SUPPORT. The words' fields and the encoded words as numbers, the response word's number, and the parameter check. -/

namespace Sys2Proof

theorem cmdOp_toNat (w : Word) : (cmdOp w).toNat = w.toNat % 16 := by simp [cmdOp, BitVec.extractLsb'_toNat]

theorem cmdZ0_toNat (w : Word) : (cmdZ0 w).toNat = w.toNat / 16 % 16 := by
  simp [cmdZ0, BitVec.extractLsb'_toNat, Nat.shiftRight_eq_div_pow]

theorem cmdOpnd_toNat (w : Word) : (cmdOpnd w).toNat = w.toNat / 256 := by
  have := w.isLt
  simp [cmdOpnd, BitVec.extractLsb'_toNat, Nat.shiftRight_eq_div_pow]
  omega

theorem cmdTop_toNat (w : Word) : (cmdTop w).toNat = w.toNat / 2 ^ 24 := by
  have := w.isLt
  simp [cmdTop, BitVec.extractLsb'_toNat, Nat.shiftRight_eq_div_pow]
  omega

theorem cmdReq_toNat (w : Word) : (cmdReq w).toNat = w.toNat / 256 % 256 := by
  simp [cmdReq, BitVec.extractLsb'_toNat, Nat.shiftRight_eq_div_pow]

theorem cmdEn_toNat (w : Word) : (cmdEn w).toNat = w.toNat / 2 ^ 16 % 256 := by
  simp [cmdEn, BitVec.extractLsb'_toNat, Nat.shiftRight_eq_div_pow]

/-- An appended word's number: the high part shifted past the low one. -/
theorem append_toNat {m k : Nat} (x : BitVec m) (y : BitVec k) : (x ++ y).toNat = x.toNat * 2 ^ k + y.toNat := by
  rw [BitVec.toNat_append, ← Nat.shiftLeft_add_eq_or_of_lt y.isLt, Nat.shiftLeft_eq]

theorem encode_tick_toNat {n : Nat} (h : n < 2 ^ 24) : (encode (.tick n)).toNat = n * 256 + 1 := by
  have e : (encode (.tick n)).toNat = ((BitVec.ofNat 24 n ++ 0x0#4) ++ 0x1#4 : BitVec (24 + 4 + 4)).toNat := rfl
  rw [e, append_toNat, append_toNat, BitVec.toNat_ofNat, Nat.mod_eq_of_lt h]
  simp
  omega

theorem encode_resolve_toNat (req en : Byte) :
    (encode (.resolve req en)).toNat = en.toNat * 65536 + req.toNat * 256 + 4 := by
  have e : (encode (.resolve req en)).toNat =
      ((((0x00#8 ++ en) ++ req) ++ 0x0#4) ++ 0x4#4 : BitVec (8 + 8 + 8 + 4 + 4)).toNat := rfl
  rw [e, append_toNat, append_toNat, append_toNat, append_toNat]
  simp
  omega

theorem encode_tick_getLsbD (n i : Nat) : (encode (.tick n)).getLsbD i =
    ((BitVec.ofNat 24 n ++ 0x0#4) ++ 0x1#4 : BitVec (24 + 4 + 4)).getLsbD i := rfl

theorem encode_resolve_getLsbD (req en : Byte) (i : Nat) : (encode (.resolve req en)).getLsbD i =
    ((((0x00#8 ++ en) ++ req) ++ 0x0#4) ++ 0x4#4 : BitVec (8 + 8 + 8 + 4 + 4)).getLsbD i := rfl

theorem Machine.responseWord_toNat (t : IrqTable) (k : IrqKind) :
    (Machine.responseWord t (some k)).toNat =
      (Machine.irqDescriptor t k).vector.toNat * 65536 + (Machine.irqDescriptor t k).bit.val * 256 +
        (Machine.kindCode k).toNat * 2 + 1 := by
  have e : (Machine.responseWord t (some k)).toNat =
      (((((Machine.irqDescriptor t k).vector ++ BitVec.ofNat 8 (Machine.irqDescriptor t k).bit.val) ++ 0x0#4) ++
        Machine.kindCode k) ++ 0b1#1 : BitVec (16 + 8 + 4 + 3 + 1)).toNat := rfl
  have hb := (Machine.irqDescriptor t k).bit.isLt
  rw [e, append_toNat, append_toNat, append_toNat, append_toNat, BitVec.toNat_ofNat,
    Nat.mod_eq_of_lt (Nat.lt_trans hb (by decide))]
  simp
  omega

/-- The Boolean parameter check agrees with `Config.Wf`. -/
theorem Laws.configWf_iff (c : Config) : c.wfCheck = true ↔ c.Wf := by
  simp only [Config.wfCheck, Bool.and_eq_true, decide_eq_true_eq, List.all_eq_true]
  constructor
  · rintro ⟨⟨⟨⟨⟨⟨⟨h1, h2⟩, h3⟩, h4⟩, h5⟩, h6⟩, h7⟩, h8⟩
    exact ⟨h1, h2, h3, h4, h5, h6, h7, h8⟩
  · rintro ⟨h1, h2, h3, h4, h5, h6, h7, h8⟩
    exact ⟨⟨⟨⟨⟨⟨⟨h1, h2⟩, h3⟩, h4⟩, h5⟩, h6⟩, h7⟩, h8⟩

end Sys2Proof
end

