-- ==== Sys2Proof/Laws/PerInstr.lean ====
section
/-! SUPPORT. The per-instruction family RowMatch: every command's word belongs to the command's own row of the opcode
table, whatever its operands. -/

namespace Sys2Proof.Laws.RowMatch

/-- A well-formed command's word, on its row's mask, is its row's pattern. -/
def Statement (i : Instr) : Prop := i.WellFormed → rowMatches (opcodeRow i) (encode i) = true

theorem tick (n : Nat) : Statement (.tick n) := by
  intro h
  have h := encode_tick_toNat h
  have e := Nat.and_two_pow_sub_one_eq_mod (encode (.tick n)).toNat 8
  simp only [rowMatches, opcodeRow, beq_iff_eq, BitVec.toNat_eq, BitVec.toNat_and]
  simp only [h] at *
  simp at e ⊢
  rw [e]

theorem fproc : Statement .fproc := fun _ => by decide

theorem freset : Statement .freset := fun _ => by decide

theorem resolve (req en : Byte) : Statement (.resolve req en) := by
  intro _
  simp only [rowMatches, opcodeRow, beq_iff_eq]
  apply BitVec.eq_of_getLsbD_eq
  intro i hi
  rw [BitVec.getLsbD_and, encode_resolve_getLsbD]
  simp only [BitVec.getLsbD_append]
  interval_cases i <;> simp

theorem reset : Statement .reset := fun _ => by decide

end Sys2Proof.Laws.RowMatch
end

