-- ==== Sys2Proof/Tests/Slice0.lean ====
section
/-! SUPPORT. Tests, with the vector of spec/95_test_vectors.md each expected value comes from, and for each statement
with hypotheses a state and operands that meet them (the theorems named `test_meets_…`). -/

namespace Sys2Proof.Tests

open Sys2Proof Sys2Proof.Machine

/-! ## Ill-formed terms, one for each check -/

theorem test_tick_of_2_24_is_ill_formed : ¬ (Instr.tick 16777216).WellFormed := by decide
theorem test_tick_of_2_24_less_1_is_well_formed : (Instr.tick 16777215).WellFormed := by decide
theorem test_default_parameters_are_admitted : defaultConfig.wfCheck = true := by decide
theorem test_screenW_0_refused : ({ defaultConfig with screenW := 0 } : Config).wfCheck = false := by decide
theorem test_screenH_0_refused : ({ defaultConfig with screenH := 0 } : Config).wfCheck = false := by decide
theorem test_visibleRows_0_refused : ({ defaultConfig with visibleRows := 0 } : Config).wfCheck = false := by decide
theorem test_visibleRows_247_refused : ({ defaultConfig with visibleRows := 247 } : Config).wfCheck = false := by decide
theorem test_address_past_width_refused :
    ({ defaultConfig with addrIe := 0x10000 } : Config).wfCheck = false := by decide
theorem test_two_registers_at_one_address_refused :
    ({ defaultConfig with addrLy := 0xFF40 } : Config).wfCheck = false := by decide
theorem test_two_kinds_on_one_bit_refused :
    ({ defaultConfig with irq := { defaultIrqTable with timer := ⟨0x0050, 1⟩ } } : Config).wfCheck = false := by decide
theorem test_falling_vectors_refused :
    ({ defaultConfig with irq := { defaultIrqTable with timer := ⟨0x0040, 2⟩ } } : Config).wfCheck = false := by decide

/-! ## Decoding: words written bit by bit, from the high bit, by R86-R90 (opnd 24, z0 4, op 4) -/

theorem test_tick_80_bits :
    decode 0b00000000_00000000_01010000_0000_0001 = .ok (.tick 80) := rfl            -- V-ENC-3
theorem test_tick_longest_bits :
    decode 0b11111111_11111111_11111111_0000_0001 = .ok (.tick 16777215) := rfl      -- V-ENC-5
theorem test_fproc_bits :
    decode 0b00000000_00000000_00000000_0000_0010 = .ok .fproc := rfl                -- V-ENC-7
theorem test_freset_bits :
    decode 0b00000000_00000000_00000000_0000_0011 = .ok .freset := rfl               -- V-ENC-9
theorem test_resolve_bits :
    decode 0b00000000_00011110_00011111_0000_0100 = .ok (.resolve 0x1F 0x1E) := rfl  -- V-ENC-11
theorem test_reset_bits :
    decode 0b00000000_00000000_00000000_0000_0101 = .ok .reset := rfl                -- V-ENC-14

theorem test_refused_words :                                                         -- V-ENC-1, 6, 8, 13, 15
    decode 0x00000000 = .error .reservedEncoding ∧ decode 0x00000011 = .error .reservedEncoding ∧
    decode 0x00000102 = .error .reservedEncoding ∧ decode 0x01000004 = .error .reservedEncoding ∧
    decode 0x00000006 = .error .reservedEncoding ∧ decode 0x0000000F = .error .reservedEncoding :=
  ⟨rfl, rfl, rfl, rfl, rfl, rfl⟩

theorem test_table_word_decodes : decodeTableWord 32 0x00005001 = some (.tick 80) := rfl

theorem test_assembler :                                                             -- R101 and the note under V-ENC
    assembleLine "tick 80".toList = some [0x00005001] ∧
    assembleLine "resolve 0x1F, 0x1E".toList = some [0x001E1F04] ∧
    assembleLine "tick 16777216".toList = none ∧ assembleLine "resolve 256, 0".toList = none := by decide

/-! ## Small states -/

/-- The parameters of spec/95_test_vectors.md section 2. -/
def cfg : Config := { defaultConfig with tileMap := .d19TestInstance }

/-- A feed that answers the given list first. -/
def feed {α : Type} (l : List α) : AnswerFeed α := { script := l, taken := 0 }

/-- Eight pixels. -/
def row8 : List Pixel := List.replicate 8 ⟨0⟩

/-- P1 and T0 of spec/95_test_vectors.md section 2, for their first answers. -/
def env : Collaborators :=
  { mapBase := feed [0x9800, 0x9800], tileNumber := feed [⟨0⟩, ⟨1⟩], tile := feed [⟨7⟩, ⟨8⟩]
    rowPixels := feed (List.replicate 13 row8), pipe := feed (List.replicate 12 ⟨1, none⟩)
    pipeIdle := feed (List.replicate 12 true) }

/-- S0. -/
def s0 : State := launch cfg ⟨0, 0, 0, 0, 0, 0, 0⟩ [] env

/-- S0 with some registers written. -/
def withRegs (l : List (Reg × Byte)) (s : State) : State :=
  l.foldl (fun s x => applyMove (.writeReg x.1 x.2) s) s

/-- S0 in a mode, with a counter and a row. -/
def inMode (m : Mode) (cyc row : Nat) : State := { s0 with mode := m, cyc := cyc, cur := { s0.cur with row := row } }

/-- S0 with a Fetcher. -/
def fetching (f : Fetcher) : State := { s0 with f := f }

/-- A Fetcher that holds a row, ready to be handed over. -/
def ready : Fetcher :=
  { state := .transferReady, tileX := 8, acc := 0, tileIndex := some ⟨0⟩, tile := some ⟨7⟩, pixRow := some row8 }

/-- One command from a state, by the fields of interest. -/
def after (i : Instr) (s : State) : State := (nextState (exec i s)).getD s

/-! ## One step of each command -/

-- V-MC-3: the exit keeps the leftover, reads LCDC and queries with height 16
theorem test_tick_oam_exit :
    (after (.tick 3) (withRegs [(.lcdc, 0x04)] (inMode .oamSearch 79 5))).mode = .pixelTransfer ∧
    (after (.tick 3) (withRegs [(.lcdc, 0x04)] (inMode .oamSearch 79 5))).cyc = 2 ∧
    (after (.tick 3) (withRegs [(.lcdc, 0x04)] (inMode .oamSearch 79 5))).history =
      [.memRead 0xFF40 0x04, .findVisible 5 16] := by decide

-- V-MC-10: the registers after the HBLANK exit of row 143
theorem test_tick_hblank_exit :
    (after (.tick 4) (inMode .hblank 200 143)).mode = .vblank ∧
    (after (.tick 4) (inMode .hblank 200 143)).mem = [(0xFF0F, 0x02), (0xFF41, 0x08), (0xFF44, 0x8F)] ∧
    (after (.tick 4) (inMode .hblank 200 143)).cur = { col := 0, row := 144, frameReady := false } := by decide

-- V-TF-5: the tile-map address, and the cursor after it
theorem test_fproc_read_tile_num :
    (after .fproc { fetching ⟨.readTileNum, 16, 1, none, none, none⟩ with cur := ⟨0, 9, false⟩ }).history =
      [.memRead 0xFF43 0, .memRead 0xFF42 0, .mapBase 0x9800, .tileNumberAt 0x9822 ⟨0⟩] ∧
    (after .fproc { fetching ⟨.readTileNum, 16, 1, none, none, none⟩ with cur := ⟨0, 9, false⟩ }).f =
      ⟨.readData0, 24, 0, some ⟨0⟩, none, none⟩ := by decide

-- V-TF-11: the row inside the tile is 13 mod 8
theorem test_fproc_read_data_1 :
    (after .fproc { fetching ⟨.readData1, 8, 1, some ⟨0⟩, some ⟨7⟩, none⟩ with cur := ⟨0, 13, false⟩ }).history =
      [.rowPixels ⟨7⟩ 5 row8] := by decide

-- V-TF-4: the data fields are kept
theorem test_freset_keeps_data :
    (after .freset (fetching ⟨.readData0, 40, 1, some ⟨3⟩, some ⟨4⟩, none⟩)).f =
      ⟨.readTileNum, 0, 0, some ⟨3⟩, some ⟨4⟩, none⟩ := by decide

-- V-IR-3 and V-IR-8: the response words
theorem test_resolve_lcdc_stat : (after (.resolve 0x1F 0x1E) s0).responses = [0x00480103] := by decide
theorem test_resolve_joypad : (after (.resolve 0x10 0x10) s0).responses = [0x00600409] := by decide

-- V-RS-1: RESET from a state in another mode, with memory kept
theorem test_reset_fields :
    (after .reset (withRegs [(.ly, 9)] { inMode .vblank 7 150 with f := ready })).f = Fetcher.reset ∧
    (after .reset (withRegs [(.ly, 9)] { inMode .vblank 7 150 with f := ready })).mem = [(0xFF44, 9)] ∧
    (after .reset (withRegs [(.ly, 9)] { inMode .vblank 7 150 with f := ready })).history = [.pipeReset] := by decide

-- V-FLT-1: the fault and what it records
theorem test_zero_cost_fault :
    (after (.tick 5) { inMode .pixelTransfer 0 0 with collab := { env with pipe := feed [⟨0, none⟩] } }).fault =
      some (.pipeZeroCost 5 5) := by decide

/-- `withFetchWord` places the word where the next step takes it. -/
theorem test_with_fetch_word : step (State.reset.withFetchWord 32 0x00005001) = exec (.tick 80) State.reset := rfl

/-! ## States that meet the hypotheses of the statements -/

theorem test_s0_running : s0.Running := ⟨rfl, rfl⟩

theorem test_cfg_wf : cfg.Wf := (Laws.configWf_iff cfg).1 (by decide)

/-- A state of the invariant that is not the reset state: VBLANK, a row waiting, registers written. -/
def busy : State := withRegs [(.stat, 0x08), (.iflag, 0x05)] { inMode .vblank 455 153 with f := ready }

theorem test_busy_running : busy.Running := ⟨rfl, rfl⟩

theorem test_busy_inv : busy.Inv :=
  ⟨test_cfg_wf, by decide, by constructor <;> decide, (by decide : 144 ≤ 153 ∧ 153 < 144 + 10)⟩

theorem test_meets_decode_of_encode : (Instr.resolve 0x1F 0x1E).WellFormed ∧ (Instr.tick 80).WellFormed := by decide

theorem test_meets_decoded_command_encodes : decode 0x001E1F04 = .ok (.resolve 0x1F 0x1E) := rfl

/-- A running state whose port holds one move. -/
def porting (m : HostMove) : State := { s0 with port := [m] }

/-- One word for each class of R92. -/
theorem test_meets_reserved_word :
    (porting (.command 0x00000011)).Running ∧ (porting (.command 0x00000011)).port = .command 0x00000011 :: [] ∧
    (0x00000000#32).toNat % 16 = 0 ∧ 6 ≤ (0x00000006#32).toNat % 16 ∧ (0x00000011#32).toNat / 16 % 16 ≠ 0 ∧
    ((0x00000105#32).toNat % 16 = 5 ∧ (0x00000105#32).toNat / 256 ≠ 0) ∧
    ((0x01000004#32).toNat % 16 = 4 ∧ (0x01000004#32).toNat / 2 ^ 24 ≠ 0) :=
  ⟨⟨rfl, rfl⟩, rfl, by decide⟩

theorem test_meets_assembler : readNumber ['8', '0'] = some 80 ∧ readNumber ['0', 'x', '1', 'F'] = some 0x1F ∧
    readNumber ['2', '5', '6'] = some 256 := by decide

theorem test_meets_step_runs :
    (porting (.command 0x00005001)).Running ∧ (porting (.command 0x00005001)).port = .command 0x00005001 :: [] ∧
    decode 0x00005001 = .ok (.tick 80) := ⟨⟨rfl, rfl⟩, rfl, rfl⟩

theorem test_meets_host_moves :
    (porting (.writeReg .ly 9)).Running ∧ Memory.wf (porting (.writeReg .ly 9)).mem = true ∧
    (porting (.writeReg .ly 9)).port = .writeReg .ly 9 :: [] ∧ (porting (.readReg .ly)).port = .readReg .ly :: [] ∧
    (porting .clearFrameReady).port = .clearFrameReady :: [] ∧ s0.port = [] := ⟨⟨rfl, rfl⟩, rfl, rfl, rfl, rfl, rfl⟩

theorem test_meets_stopped :
    ({ s0 with fault := some (.pipeZeroCost 5 5) } : State).fault = some (.pipeZeroCost 5 5) ∧
    ({ s0 with refused := true } : State).fault = none ∧ ({ s0 with refused := true } : State).refused = true ∧
    ({ porting (.command 0x00000005) with refused := true } : State).port = .command 0x00000005 :: [] :=
  ⟨rfl, rfl, rfl, rfl⟩

/-- V-TF-14: a row of nine pixels. -/
def nine : State :=
  { fetching ⟨.readData1, 8, 1, some ⟨0⟩, some ⟨7⟩, none⟩ with
    collab := { env with rowPixels := feed [⟨1⟩ :: row8] } }

theorem test_meets_refused_command : ∃ t, exec .fproc nine = .next t ∧ t.refused = true := ⟨_, rfl, rfl⟩

-- R84, R185: the refused call is recorded, the Fetcher as before
theorem test_refused_call_is_recorded :
    (after .fproc nine).history = [.rowPixels ⟨7⟩ 0 (⟨1⟩ :: row8)] ∧ (after .fproc nine).f = nine.f ∧
    (after .fproc nine).collab.rowPixels.taken = 1 := by decide

theorem test_meets_refused_tick :
    ({ nine with mode := .pixelTransfer } : State).Running ∧
    ∃ r u, innerLoop 1 1 1 { nine with mode := .pixelTransfer, cyc := nine.cyc + 1 } = .refuse r u :=
  ⟨⟨rfl, rfl⟩, ⟨_, _, rfl⟩⟩

theorem test_meets_power_on : defaultConfig.Wf := (Laws.configWf_iff defaultConfig).1 (by decide)

theorem test_meets_every_step :
    ({ busy with port := [.command 0x00000101] } : State).Inv ∧
    ∃ t, step { busy with port := [.command 0x00000101] } = .next t :=
  ⟨⟨test_busy_inv.1, test_busy_inv.2, test_busy_inv.3, test_busy_inv.4⟩, ⟨_, rfl⟩⟩

theorem test_meets_only_zero_cost :
    busy.Inv ∧ busy.Running ∧ ∃ t, step busy = .next t := ⟨test_busy_inv, test_busy_running, ⟨_, rfl⟩⟩

theorem test_meets_equal_memories :
    Memory.wf busy.mem = true ∧ Memory.wf (Memory.write (Memory.write busy.mem 0xC000 1) 0xC000 0) = true ∧
    (Memory.write (Memory.write busy.mem 0xC000 1) 0xC000 0) = busy.mem := by decide

/-- Each clause of the arm statements at its boundary: one cycle short of the budget, and at it. -/
theorem test_meets_tick_in_oam :
    (inMode .oamSearch 79 5).Running ∧ (inMode .oamSearch 79 5).mode = .oamSearch ∧
    (inMode .oamSearch 79 5).cyc + 0 < 80 ∧ 80 ≤ (inMode .oamSearch 79 5).cyc + 1 := ⟨⟨rfl, rfl⟩, rfl, by decide, by decide⟩

theorem test_meets_tick_in_hblank :
    (inMode .hblank 203 0).Running ∧ (inMode .hblank 203 0).cfg.Wf ∧ Memory.wf (inMode .hblank 203 0).mem = true ∧
    (inMode .hblank 203 0).mode = .hblank ∧ (inMode .hblank 203 0).cyc + 0 < 204 ∧ 204 ≤ (inMode .hblank 203 0).cyc + 1 :=
  ⟨⟨rfl, rfl⟩, test_cfg_wf, rfl, rfl, by decide, by decide⟩

theorem test_meets_tick_in_vblank :
    busy.Running ∧ busy.cfg.Wf ∧ Memory.wf busy.mem = true ∧ busy.mode = .vblank ∧
    busy.cyc + 0 < 456 ∧ 456 ≤ busy.cyc + 1 := ⟨test_busy_running, test_cfg_wf, by decide, rfl, by decide, by decide⟩

/-- PIXEL_TRANSFER with a row waiting and the counter one short of the budget. -/
def transferring : State := { inMode .pixelTransfer 171 3 with f := ready }

theorem test_meets_tick_in_pixel_transfer :
    transferring.Running ∧ transferring.f.Inv ∧ transferring.mode = .pixelTransfer ∧
    PipeOwesCost 1 transferring ∧ RowsOweLength 1 transferring ∧
    transferring.cyc + 0 < 172 ∧ 172 ≤ transferring.cyc + 1 :=
  ⟨⟨rfl, rfl⟩, by constructor <;> decide, rfl, by unfold PipeOwesCost; decide, by unfold RowsOweLength; decide,
   by decide, by decide⟩

theorem test_meets_inner_loop : (1 : Int) ≤ ((1 : Nat) : Int) ∧ (0 : Int) < 1 ∧ (0 : Int) ≤ ((1 : Nat) : Int) := by
  decide

/-- V-FLT-1's state. -/
def zeroCost : State := { inMode .pixelTransfer 0 0 with collab := { env with pipe := feed [⟨0, none⟩] } }

theorem test_meets_zero_cost_at_once :
    zeroCost.Running ∧ zeroCost.mode = .pixelTransfer ∧
    (zeroCost.collab.pipe.answer Config.freePipeAnswer).cost = 0 := ⟨⟨rfl, rfl⟩, rfl, rfl⟩

theorem test_meets_zero_cost_records :
    ∃ t, exec (.tick 5) zeroCost = .next t ∧ t.fault = some (.pipeZeroCost 5 5) := ⟨_, rfl, rfl⟩

theorem test_meets_hand_off :
    ({ transferring with cyc := 0 } : State).Running ∧ ({ transferring with cyc := 0 } : State).f.pixRow = some row8 ∧
    1 ≤ (({ transferring with cyc := 0 } : State).collab.pipe.answer Config.freePipeAnswer).cost ∧
    ({ transferring with cyc := 0 } : State).cyc + 1 < 172 := ⟨⟨rfl, rfl⟩, rfl, by decide, by decide⟩

/-- Twelve turns of P1, and of a pipeline that is never idle. -/
theorem test_meets_column_period :
    s0.f.state = .readTileNum ∧ s0.f.tileX = 0 ∧ s0.f.acc = 0 ∧
    (∀ j < 12, 1 ≤ (s0.collab.pipe.upcoming Config.freePipeAnswer j).cost) ∧ RowsOweLength 12 s0 ∧
    (∀ j < 12, s0.collab.pipeIdle.upcoming Config.freePipeIdle j = true) ∧
    (∀ j < 12, (feed (List.replicate 12 false)).upcoming Config.freePipeIdle j = false) :=
  ⟨rfl, rfl, rfl, by decide, by unfold RowsOweLength; decide, by decide, by decide⟩

theorem test_meets_tick_zero :
    s0.Running ∧ s0.cyc < modeBudget s0.mode ∧ modeBudget busy.mode ≤ ({ busy with cyc := 456 } : State).cyc ∧
    (inMode .pixelTransfer 172 0).mode = .pixelTransfer ∧ 172 ≤ (inMode .pixelTransfer 172 0).cyc :=
  ⟨⟨rfl, rfl⟩, by decide, by decide, rfl, by decide⟩

theorem test_meets_one_transition :
    (∃ t, exec (.tick 1) busy = .next t ∧ t.Running ∧ ExitDue 1 busy) ∧
    (∃ t, exec (.tick 0) busy = .next t ∧ t.Running ∧ ¬ ExitDue 0 busy) :=
  ⟨⟨_, rfl, ⟨rfl, rfl⟩, by unfold ExitDue; decide⟩, ⟨_, rfl, ⟨rfl, rfl⟩, by unfold ExitDue; decide⟩⟩

/-- Two splits of one cycle sum that cross a boundary. -/
theorem test_meets_only_the_sum :
    (∀ n ∈ [79, 1], n ≤ 80) ∧ (∀ m ∈ [80], m ≤ 80) ∧ [79, 1].sum = [80].sum ∧ s0.cyc < modeBudget s0.mode ∧
    (∃ t, runCommands (ticks [79, 1]) s0 = .next t ∧ t.Running) ∧
    (∃ u, runCommands (ticks [80]) s0 = .next u ∧ u.Running) :=
  ⟨by decide, by decide, rfl, by decide, ⟨_, rfl, ⟨rfl, rfl⟩⟩, ⟨_, rfl, ⟨rfl, rfl⟩⟩⟩

theorem test_meets_latch :
    busy.cfg.Wf ∧ Memory.wf busy.mem = true ∧ (∃ t, exec (.tick 1) busy = .next t) ∧ ExitDue 1 busy ∧
    busy.mode = .vblank ∧ readReg busy .stat &&& busy.cfg.statM1Test = 0 ∧
    readReg (withRegs [(.stat, 0x10)] busy) .stat &&& busy.cfg.statM1Test ≠ 0 ∧
    (inMode .hblank 203 0).mode = .hblank ∧ readReg (inMode .hblank 203 0) .stat &&& cfg.statM0Test = 0 ∧
    readReg (withRegs [(.stat, 0x08)] (inMode .hblank 203 0)) .stat &&& cfg.statM0Test ≠ 0 :=
  ⟨test_cfg_wf, by decide, ⟨_, rfl⟩, by unfold ExitDue; decide, rfl, by decide, by decide, rfl, by decide, by decide⟩

theorem test_meets_tick_frame : Memory.wf busy.mem = true ∧ ∃ t, exec (.tick 1) busy = .next t := ⟨by decide, ⟨_, rfl⟩⟩

theorem test_meets_fproc_waits :
    (fetching ready).Running ∧ (fetching ready).f.state = .transferReady ∧
    s0.f.state ≠ .transferReady ∧ s0.f.acc + 1 < 2 := ⟨⟨rfl, rfl⟩, rfl, by decide, by decide⟩

/-- A Fetcher with its divider due, in each of its states. -/
def due (x : FetchState) : State := fetching ⟨x, 8, 1, some ⟨0⟩, some ⟨7⟩, none⟩

theorem test_meets_fproc_micro_steps :
    (due .readTileNum).Running ∧ 2 ≤ (due .readTileNum).f.acc + 1 ∧
    (due .readData0).f.state = .readData0 ∧ (due .readData0).f.tileIndex = some ⟨0⟩ ∧
    (due .readData1).f.state = .readData1 ∧ (due .readData1).f.tile = some ⟨7⟩ ∧
    ((due .readData1).collab.rowPixels.answer Config.freeRowPixels).length ≤ 8 ∧
    8 < (nine.collab.rowPixels.answer Config.freeRowPixels).length ∧
    (fetching ⟨.readData0, 8, 1, none, none, none⟩).f.tileIndex = none ∧
    (fetching ⟨.readData1, 8, 1, none, none, none⟩).f.tile = none :=
  ⟨⟨rfl, rfl⟩, by decide, rfl, rfl, rfl, rfl, by decide, by decide, rfl, rfl⟩

theorem test_meets_six_steps :
    s0.Running ∧ s0.f.state = .readTileNum ∧ s0.f.acc = 0 ∧ RowsOweLength 1 s0 :=
  ⟨⟨rfl, rfl⟩, rfl, rfl, by unfold RowsOweLength; decide⟩

theorem test_meets_fproc_frame : ∃ t, exec .fproc (due .readTileNum) = .next t := ⟨_, rfl⟩

theorem test_meets_resolve :
    s0.Running ∧
    (∀ k, (0x1F#8).getLsbD (irqDescriptor defaultIrqTable k).bit.val = true) ∧
    (∀ k, k ≠ .vblank → (0x1E#8).getLsbD (irqDescriptor defaultIrqTable k).bit.val = true) ∧
    (0x1E#8).getLsbD (irqDescriptor defaultIrqTable .vblank).bit.val = false :=
  ⟨⟨rfl, rfl⟩, fun k => by cases k <;> rfl, fun k h => by cases k <;> first | rfl | exact absurd rfl h, rfl⟩

theorem test_meets_response_layout :
    s0.Running ∧ (∃ t, exec .reset busy = .next t) ∧ ∀ req en, Instr.reset ≠ .resolve req en :=
  ⟨⟨rfl, rfl⟩, ⟨_, rfl⟩, fun _ _ h => by cases h⟩

theorem test_meets_no_command_clears :
    busy.cfg.Wf ∧ Memory.wf busy.mem = true ∧ (∃ t, exec (.tick 1) busy = .next t) ∧
    (readReg busy .iflag).getLsbD 0 = true ∧ (readReg busy .stat).getLsbD 3 = true ∧
    (porting (.writeReg .iflag 0)).Running ∧ (porting (.writeReg .iflag 0)).port = .writeReg .iflag 0 :: [] :=
  ⟨test_cfg_wf, by decide, ⟨_, rfl⟩, by decide, by decide, ⟨rfl, rfl⟩, rfl⟩

theorem test_meets_requests_raised :
    (inMode .hblank 203 0).cfg.Wf ∧ Memory.wf (inMode .hblank 203 0).mem = true ∧
    ∃ t, exec (.tick 1) (inMode .hblank 203 0) = .next t ∧ readReg t .iflag = 0x02 :=
  ⟨test_cfg_wf, rfl, ⟨_, rfl, by decide⟩⟩

theorem test_meets_ly_written :
    (∃ t, exec (.tick 1) busy = .next t) ∧ ExitDue 1 busy ∧ busy.mode = .vblank ∧
    (∃ t, exec (.tick 0) busy = .next t) ∧ ¬ ExitDue 0 busy :=
  ⟨⟨_, rfl⟩, by unfold ExitDue; decide, rfl, ⟨_, rfl⟩, by unfold ExitDue; decide⟩

/-- A wrap that sets frame-ready, and a consumer that clears it. -/
theorem test_meets_who_writes_frame_ready :
    (∃ t, step { busy with port := [.command 0x00000101] } = .next t ∧ busy.cur.frameReady = false ∧
      t.cur.frameReady = true) ∧
    (∃ t, step { s0 with cur := ⟨0, 0, true⟩, port := [.clearFrameReady] } = .next t ∧ t.cur.frameReady = false) ∧
    (∃ t, step { s0 with cur := ⟨0, 0, true⟩, port := [.command 0x00000005] } = .next t ∧
      t.cur.frameReady = false) := ⟨⟨_, rfl, rfl, rfl⟩, ⟨_, rfl, rfl⟩, ⟨_, rfl, rfl⟩⟩

theorem test_meets_only_tick_and_reset :
    (∃ t, exec .freset busy = .next t) ∧ (∀ n, Instr.freset ≠ .tick n) ∧ Instr.freset ≠ .reset ∧
    (∃ t, exec (.tick 0) busy = .next t) ∧ ¬ ExitDue 0 busy :=
  ⟨⟨_, rfl⟩, fun _ h => Instr.noConfusion h, by decide, ⟨_, rfl⟩, by unfold ExitDue; decide⟩

/-- Two memories that differ in LY, in IE and in a byte of RAM. -/
theorem test_meets_other_bytes :
    busy.cfg.Wf ∧ Memory.wf busy.mem = true ∧
    Memory.wf (Memory.write (Memory.write (Memory.write busy.mem 0xFF44 7) 0xFFFF 7) 0xC000 7) = true ∧
    SameReadRegs busy.cfg busy.mem (Memory.write (Memory.write (Memory.write busy.mem 0xFF44 7) 0xFFFF 7) 0xC000 7) ∧
    ∃ t, exec (.tick 1) busy = .next t :=
  ⟨test_cfg_wf, by decide, by decide, by unfold SameReadRegs; decide, ⟨_, rfl⟩⟩

theorem test_meets_record : ∃ t, step busy = .next t := ⟨_, rfl⟩

/-! One frame of a display of one visible row, in steps of at most 80, with a pipeline that takes 80 cycles a call. -/

/-- 5016 = 62 · 80 + 56 cycles. -/
def frameTicks : List Nat := List.replicate 62 80 ++ [56]

/-- The start of that frame. -/
def frameStart : State :=
  { s0 with cfg := { cfg with visibleRows := 1 }, collab := { env with pipe := feed (List.replicate 4 ⟨80, none⟩) } }

/-- Whether an outcome is a running state. -/
def runs (o : Host.Outcome State Fault Refusal) : Bool :=
  match nextState o with
  | some t => decide (t.fault = none) && !t.refused
  | none   => false

theorem test_frame_runs : runs (runCommands (ticks frameTicks) frameStart) = true := by decide +kernel

theorem test_meets_one_frame :
    (∀ n ∈ frameTicks, n ≤ 80) ∧ frameTicks.sum = frameCycles frameStart.cfg ∧ frameStart.cfg.Wf ∧
    Memory.wf frameStart.mem = true ∧ frameStart.mode = .oamSearch ∧ frameStart.cyc = 0 ∧ frameStart.cur.row = 0 ∧
    ∃ t, runCommands (ticks frameTicks) frameStart = .next t ∧ t.Running := by
  refine ⟨by decide, by decide, (Laws.configWf_iff _).1 (by decide), rfl, rfl, rfl, rfl, ?_⟩
  have h := test_frame_runs
  cases e : runCommands (ticks frameTicks) frameStart with
  | next t =>
    rw [e] at h
    have h' : t.fault = none ∧ t.refused = false := by simpa [runs, nextState] using h
    exact ⟨t, rfl, h'.1, h'.2⟩
  | fault f => rw [e] at h; cases h
  | refused r => rw [e] at h; cases h

end Sys2Proof.Tests
end

/-! One frame of small TICKs (R9, R122, R126, R128). A running TICK acts on the controller as the arm of its mode
without the inner loop; each arm keeps the position in the frame, a cycle count that a wrap lowers by FRAME_CYCLES. -/

namespace Sys2Proof.Machine

/-! ## A running TICK, as the controller sees it -/

/-- The controller's part of a TICK's arm: PIXEL_TRANSFER without its inner loop (R110, R116, R117, R121). -/
def controllerArm (s : State) : State :=
  match s.mode with
  | .oamSearch     => oamArm s
  | .pixelTransfer => ptExit s
  | .hblank        => hblankArm s
  | .vblank        => vblankArm s

/-- The PIXEL_TRANSFER exit depends on the controller's fields alone (R129). -/
theorem ptExit_same {s t : State} (h : SameController s t) : SameController (ptExit s) (ptExit t) := by
  rcases Nat.lt_or_ge s.cyc ptBudget with hc | hc
  · rw [ptExit_of_lt hc, ptExit_of_lt (h.cyc ▸ hc)]
    exact h
  · rw [ptExit_exit hc, ptExit_exit (h.cyc ▸ hc)]
    exact ⟨rfl, congrArg (· - ptBudget) h.cyc, h.row, h.frameReady, h.mem, h.responses, h.port, h.cfg⟩

/-- A TICK that leaves the block running accumulates its operand and runs the controller's arm; the Fetcher and the
pipeline touch none of the controller's fields. -/
theorem tick_controllerArm {n : Nat} {s t : State} (h : exec (.tick n) s = .next t) (ht : t.Running) :
    SameController (controllerArm (s.setCyc (s.cyc + n))) t := by
  obtain ⟨_, rfl⟩ := exec_next h
  cases hm : s.mode with
  | pixelTransfer =>
    simp only [controllerArm, State.setCyc_mode, hm]
    rcases tick_pixelTransfer_cases n hm with ⟨u, _, hu, e⟩ | ⟨c, u, _, _, e⟩ | ⟨r, u, _, _, e⟩
    · rw [e]
      exact ptExit_same hu
    · rw [e] at ht
      cases ht.no_fault
    · rw [e] at ht
      cases ht.no_refusal
  | oamSearch | hblank | vblank =>
    simp only [controllerArm, commandBody, modeArm, State.setCyc_mode, hm, settle_go]
    exact .refl _

/-- A TICK of 0 below the budget keeps the state, outside PIXEL_TRANSFER (R130). -/
theorem tick_zero_of_lt {s t : State} (h : exec (.tick 0) s = .next t) (hm : s.mode ≠ .pixelTransfer)
    (hc : s.cyc < modeBudget s.mode) : t = s := by
  rcases tick_cases h hm with ⟨_, rfl⟩ | ⟨hd, _⟩
  · rfl
  · exact absurd hc (Nat.not_lt.2 hd)

/-- A run that ends in a running state began in one. -/
theorem runCommands_running {is : List Instr} {s t : State} (h : runCommands is s = .next t) (ht : t.Running) :
    s.Running := by
  cases is with
  | nil => cases h; exact ht
  | cons i is =>
    simp only [runCommands] at h
    split at h
    next u hu => exact (exec_next hu).1
    all_goals cases h

/-- A run of TICKs, its first TICK taken apart. -/
theorem runCommands_ticks_cons {n : Nat} {ns : List Nat} {s t : State}
    (h : runCommands (ticks (n :: ns)) s = .next t) :
    ∃ u, exec (.tick n) s = .next u ∧ runCommands (ticks ns) u = .next t := by
  simp only [ticks, List.map_cons, runCommands] at h
  split at h
  next u hu => exact ⟨u, hu, h⟩
  all_goals cases h

/-- TICKs of 0 below the budget keep the state, outside PIXEL_TRANSFER (R130). -/
theorem runCommands_ticks_zero {ns : List Nat} {s t : State} (h : runCommands (ticks ns) s = .next t)
    (h0 : ns.sum = 0) (hm : s.mode ≠ .pixelTransfer) (hc : s.cyc < modeBudget s.mode) : t = s := by
  induction ns with
  | nil => cases h; rfl
  | cons n ns ih =>
    obtain ⟨rfl, hns⟩ : n = 0 ∧ ns.sum = 0 := by simpa using h0
    obtain ⟨u, hu, hrun⟩ := runCommands_ticks_cons h
    obtain rfl := tick_zero_of_lt hu hm hc
    exact ih hrun hns

/-! ## The position in the frame -/

/-- Cycles of a scanline before a mode begins (R9); a VBLANK line has no other mode. -/
def modeStart : Mode → Nat
  | .oamSearch     => 0
  | .pixelTransfer => oamBudget
  | .hblank        => oamBudget + ptBudget
  | .vblank        => 0

/-! The budgets as numbers (R7, R9). -/

@[simp] theorem modeBudget_oamSearch : modeBudget .oamSearch = 80 := rfl
@[simp] theorem modeBudget_pixelTransfer : modeBudget .pixelTransfer = 172 := rfl
@[simp] theorem modeBudget_hblank : modeBudget .hblank = 204 := rfl
@[simp] theorem modeBudget_vblank : modeBudget .vblank = 456 := rfl
@[simp] theorem lineCycles_eq : lineCycles = 456 := rfl
@[simp] theorem modeStart_oamSearch : modeStart .oamSearch = 0 := rfl
@[simp] theorem modeStart_pixelTransfer : modeStart .pixelTransfer = 80 := rfl
@[simp] theorem modeStart_hblank : modeStart .hblank = 252 := rfl
@[simp] theorem modeStart_vblank : modeStart .vblank = 0 := rfl

/-- What is left over a budget by at most 80 cycles is below every budget (R126). -/
theorem leftover_lt_modeBudget {c b : Nat} (hge : b ≤ c) (hc : c < b + 80) (m : Mode) : c - b < modeBudget m := by
  cases m <;> simp <;> omega

theorem frameCycles_eq (c : Config) : frameCycles c = (c.visibleRows + 10) * 456 := by
  simp [frameCycles, vblankLines, vblankLineBudget, Nat.add_mul]

/-! A row's range in each mode (R27). -/

@[simp] theorem rowInRange_vblank (c : Config) (r : Nat) :
    RowInRange c .vblank r ↔ c.visibleRows ≤ r ∧ r < c.visibleRows + 10 := Iff.rfl
@[simp] theorem rowInRange_of_ne_vblank (c : Config) {m : Mode} (hm : m ≠ .vblank) (r : Nat) :
    RowInRange c m r ↔ r < c.visibleRows := by
  cases m with
  | vblank => exact absurd rfl hm
  | hblank | oamSearch | pixelTransfer => rfl

/-- Cycles since the start of the frame (R9, R131): a VBLANK line is as long as a visible one. -/
def State.framePos (s : State) : Nat := s.cur.row * lineCycles + modeStart s.mode + s.cyc

/-- Admitted parameters, canonical memory, and a row in the range of its mode (R27). -/
structure State.InFrame (s : State) : Prop where
  cfg_wf : s.cfg.Wf
  mem_wf : Memory.wf s.mem = true
  row    : RowInRange s.cfg s.mode s.cur.row

/-- What small TICKs keep: no exit is overdue (R126). -/
structure State.OnSchedule (s : State) : Prop extends s.InFrame where
  cyc_lt : s.cyc < modeBudget s.mode

/-- What the frame wrap leaves: frame-ready set, and LY at the last VBLANK row (R122, R128). -/
structure State.FrameEnded (s : State) : Prop where
  ready : s.cur.frameReady = true
  ly    : readReg s .ly = BitVec.ofNat 8 (s.cfg.visibleRows + 9)

/-- `t` is on schedule at the frame position of `s`, counted from the next frame's start if a wrap has come between. -/
structure FrameStep (s t : State) : Prop where
  onSchedule : t.OnSchedule
  cfg        : t.cfg = s.cfg
  pos        : t.framePos = s.framePos ∨ t.framePos + frameCycles s.cfg = s.framePos ∧ t.FrameEnded

theorem FrameStep.refl {s : State} (h : s.OnSchedule) : FrameStep s s := ⟨h, rfl, .inl rfl⟩

/-- Frame steps see the controller's fields alone. -/
theorem FrameStep.congr {s t u : State} (h : FrameStep s t) (k : SameController t u) : FrameStep s u := by
  obtain ⟨⟨⟨hcfg, hmem, hrow⟩, hcyc⟩, hc, hpos⟩ := h
  have hp : u.framePos = t.framePos := by simp only [State.framePos, k.row, k.mode, k.cyc]
  refine ⟨⟨⟨?_, ?_, ?_⟩, ?_⟩, k.cfg.trans hc, ?_⟩
  · rwa [k.cfg]
  · rwa [k.mem]
  · rwa [k.cfg, k.mode, k.row]
  · rwa [k.mode, k.cyc]
  · rw [hp]
    refine hpos.imp_right fun ⟨hw, he⟩ => ⟨hw, k.frameReady.trans he.ready, ?_⟩
    simpa only [readReg, k.mem, k.cfg] using he.ly

/-- A frame is not over while the block is on schedule. -/
theorem State.OnSchedule.framePos_lt {s : State} (h : s.OnSchedule) : s.framePos < frameCycles s.cfg := by
  have hrow := h.row
  have hcyc := h.cyc_lt
  rw [frameCycles_eq, State.framePos]
  cases hm : s.mode <;> simp [hm] at hrow hcyc ⊢ <;> omega

/-- Position 0 is the start of OAM_SEARCH of row 0. -/
theorem State.OnSchedule.start_of_framePos {s : State} (h : s.OnSchedule) (h0 : s.framePos = 0) :
    s.mode = .oamSearch ∧ s.cyc = 0 ∧ s.cur.row = 0 := by
  have hrow := h.row
  have hv := h.cfg_wf.visibleRows_pos
  rw [State.framePos] at h0
  cases hm : s.mode <;> simp [hm] at hrow h0 ⊢ <;> omega

/-! ## Each arm is a frame step -/

section Arms

variable {s : State} (h : s.InFrame)

include h

theorem oamArm_frameStep (hm : s.mode = .oamSearch) (hc : s.cyc < 80 + 80) : FrameStep s (oamArm s) := by
  rcases Nat.lt_or_ge s.cyc 80 with hlt | hge
  · rw [oamArm_of_lt hlt]
    exact .refl ⟨h, by rwa [hm]⟩
  · obtain ⟨hcfg, hmem, hrow⟩ := h
    rw [hm] at hrow
    rw [oamArm_exit hge]
    refine ⟨⟨⟨hcfg, hmem, hrow⟩, leftover_lt_modeBudget hge hc _⟩, rfl, .inl ?_⟩
    simp [State.framePos, hm, oamBudget]
    omega

theorem ptExit_frameStep (hm : s.mode = .pixelTransfer) (hc : s.cyc < 172 + 80) : FrameStep s (ptExit s) := by
  rcases Nat.lt_or_ge s.cyc 172 with hlt | hge
  · rw [ptExit_of_lt hlt]
    exact .refl ⟨h, by rwa [hm]⟩
  · obtain ⟨hcfg, hmem, hrow⟩ := h
    rw [hm] at hrow
    rw [ptExit_exit hge]
    refine ⟨⟨⟨hcfg, hmem, hrow⟩, leftover_lt_modeBudget hge hc _⟩, rfl, .inl ?_⟩
    simp [State.framePos, hm, ptBudget]
    omega

/-- The memory an exit leaves after its latched raise and its LY write is canonical. -/
theorem raise_then_ly_wf (test set : Byte) (b : Fin 8) (v : Byte) :
    Memory.wf (Memory.write (raiseLatched test set b s).mem s.cfg.addrLy v) = true :=
  Memory.wf_write (raiseLatched_wf h.mem_wf test set b) _ _

theorem hblankArm_frameStep (hm : s.mode = .hblank) (hc : s.cyc < 204 + 80) : FrameStep s (hblankArm s) := by
  rcases Nat.lt_or_ge s.cyc 204 with hlt | hge
  · rw [hblankArm_of_lt hlt]
    exact .refl ⟨h, by rwa [hm]⟩
  · have hrow : s.cur.row < s.cfg.visibleRows := by simpa [hm] using h.row
    have hstart : modeStart (if s.cfg.visibleRows ≤ s.cur.row + 1 then .vblank else .oamSearch) = 0 := by
      split <;> rfl
    rw [hblankArm_exit hge]
    refine ⟨⟨⟨h.cfg_wf, raise_then_ly_wf h _ _ _ _, ?_⟩, leftover_lt_modeBudget hge hc _⟩, rfl, .inl ?_⟩
    · dsimp only
      split <;> simp <;> omega
    · simp [State.framePos, hm, hstart, hblankBudget]
      omega

theorem vblankArm_frameStep (hm : s.mode = .vblank) (hc : s.cyc < 456 + 80) : FrameStep s (vblankArm s) := by
  rcases Nat.lt_or_ge s.cyc 456 with hlt | hge
  · rw [vblankArm_of_lt hlt]
    exact .refl ⟨h, by rwa [hm]⟩
  obtain ⟨hfirst, hlast⟩ : s.cfg.visibleRows ≤ s.cur.row ∧ s.cur.row < s.cfg.visibleRows + 10 := by
    simpa [hm] using h.row
  have hwf := raise_then_ly_wf h s.cfg.statM1Test s.cfg.statM1Set s.cfg.irq.vblank.bit (lyByte s)
  have hcyc := leftover_lt_modeBudget hge hc
  rw [vblankArm_exit hge]
  by_cases hw : s.cfg.visibleRows + 9 < s.cur.row + 1
  · have hrow : s.cur.row = s.cfg.visibleRows + 9 := by omega
    simp only [hw, if_true]
    refine ⟨⟨⟨h.cfg_wf, hwf, h.cfg_wf.visibleRows_pos⟩, hcyc _⟩, rfl, .inr ⟨?_, rfl, ?_⟩⟩
    · simp [frameCycles_eq, State.framePos, hm, hrow, vblankLineBudget]
      omega
    · simp [readReg, regAddr, lyByte, hrow, raiseLatched_wf h.mem_wf]
  · simp only [hw, if_false, hm]
    refine ⟨⟨⟨h.cfg_wf, hwf, ?_⟩, hcyc _⟩, rfl, .inl ?_⟩
    · simp
      omega
    · simp [State.framePos, hm, vblankLineBudget]
      omega

/-- With at most 80 cycles over the budget, the controller's arm catches up at once (R126). -/
theorem controllerArm_frameStep (hc : s.cyc < modeBudget s.mode + 80) : FrameStep s (controllerArm s) := by
  cases hm : s.mode <;> rw [hm] at hc <;> simp only [controllerArm, hm]
  · exact hblankArm_frameStep h hm hc
  · exact vblankArm_frameStep h hm hc
  · exact oamArm_frameStep h hm hc
  · exact ptExit_frameStep h hm hc

end Arms

/-- A small TICK that leaves the block running moves it `n` cycles on in the frame. -/
theorem tick_frameStep {n : Nat} {s t : State} (hs : s.OnSchedule) (hn : n ≤ 80) (h : exec (.tick n) s = .next t)
    (ht : t.Running) : FrameStep (s.setCyc (s.cyc + n)) t :=
  have hc := hs.cyc_lt
  (controllerArm_frameStep (s := s.setCyc (s.cyc + n)) ⟨hs.cfg_wf, hs.mem_wf, hs.row⟩
    (by rw [State.setCyc_cyc, State.setCyc_mode]; omega)).congr (tick_controllerArm h ht)

/-- Accumulating cycles moves on in the frame (R106). -/
theorem framePos_setCyc_add (n : Nat) (s : State) : (s.setCyc (s.cyc + n)).framePos = s.framePos + n :=
  (Nat.add_assoc _ _ _).symm

/-- Small TICKs that sum to the rest of the frame end at the start of the next one. -/
theorem ticks_to_end_of_frame {ns : List Nat} {s t : State} (hs : s.OnSchedule) (hn : ∀ n ∈ ns, n ≤ 80)
    (hsum : s.framePos + ns.sum = frameCycles s.cfg) (h : runCommands (ticks ns) s = .next t) (ht : t.Running) :
    t.OnSchedule ∧ t.framePos = 0 ∧ t.cfg = s.cfg ∧ t.FrameEnded := by
  induction ns generalizing s with
  | nil =>
    rw [List.sum_nil, Nat.add_zero] at hsum
    exact absurd hsum hs.framePos_lt.ne
  | cons n ns ih =>
    obtain ⟨hn80, hns⟩ := List.forall_mem_cons.1 hn
    obtain ⟨u, hu, hrun⟩ := runCommands_ticks_cons h
    obtain ⟨hsu, hcfg, hpos⟩ := tick_frameStep hs hn80 hu (runCommands_running hrun ht)
    rw [framePos_setCyc_add, State.setCyc_cfg] at hpos
    rw [State.setCyc_cfg] at hcfg
    rw [List.sum_cons] at hsum
    rcases hpos with hpos | ⟨hpos, hend⟩
    · obtain ⟨hst, h0, hc, hend⟩ := ih hsu hns (by rw [hcfg]; omega) hrun
      exact ⟨hst, h0, hc.trans hcfg, hend⟩
    · have h0 : u.framePos = 0 := by omega
      have hrest : ns.sum = 0 := by omega
      have hmode := (hsu.start_of_framePos h0).1
      obtain rfl := runCommands_ticks_zero hrun hrest (by simp [hmode]) hsu.cyc_lt
      exact ⟨hsu, h0, hcfg, hend⟩

/-- Settles O31: each small TICK moves the block its operand's cycles on in the frame, so FRAME_CYCLES of them from
position 0 wrap exactly once and end at position 0. -/
theorem oneFrameOfSmallTicksReturnsToItsStart : Obligations.OneFrameOfSmallTicksReturnsToItsStart := by
  intro ns s t hn hsum hcfg hmem hmode hcyc hrow h ht
  have hs : s.OnSchedule := by
    refine ⟨⟨hcfg, hmem, ?_⟩, ?_⟩
    · rw [hmode, hrow]; exact hcfg.visibleRows_pos
    · rw [hmode, hcyc]; decide
  have hpos : s.framePos = 0 := by simp [State.framePos, hrow, hmode, hcyc, modeStart]
  obtain ⟨hst, h0, hc, hend⟩ := ticks_to_end_of_frame hs hn (by rw [hpos, Nat.zero_add, hsum]) h ht
  obtain ⟨hm, hcy, hr⟩ := hst.start_of_framePos h0
  exact ⟨hm, hcy, hr, hend.ready, hc ▸ hend.ly⟩

end Sys2Proof.Machine

/-! State and registers (spec/10_state.md). What a step can do is said once: `exec_cases` for the controller's fields
under a command, `step_cases` for the port. The invariant and who writes LY, frame-ready and memory follow from these.
That other bytes never reach the block is a simulation: every procedure commutes with a change of the other bytes. -/

namespace Sys2Proof.Machine

/-! ## What a command does to the controller -/

/-- `t` has what `s` has of the mode, the counter, the cursor, memory, the port and the parameters. -/
structure ControllerKept (s t : State) : Prop where
  mode : t.mode = s.mode
  cyc  : t.cyc = s.cyc
  cur  : t.cur = s.cur
  mem  : t.mem = s.mem
  port : t.port = s.port
  cfg  : t.cfg = s.cfg

/-- A fetch step keeps the controller however it ends: it goes on, faults or is refused. -/
theorem settle_fetcherStep_kept (s : State) : ControllerKept s (settle s (fetcherStep s)) := by
  have h := fetcherStep_frame s
  cases e : fetcherStep s <;> rw [e] at h
  case refuse => exact ⟨rfl, rfl, rfl, h.same.mem, h.same.port, h.same.cfg⟩
  all_goals exact ⟨h.same.mode, h.same.cyc, h.cur, h.same.mem, h.same.port, h.same.cfg⟩

/-- A TICK runs its mode's arm, or stops in the inner loop: on a fault the cycles stay counted, on a refusal the record
is as it was (R182, R185). -/
theorem settle_tick_same (n : Nat) (s : State) :
    let t := settle s (commandBody (.tick n) s)
    SameController (controllerArm (s.setCyc (s.cyc + n))) t ∨ SameController (s.setCyc (s.cyc + n)) t ∨
      SameController s t := by
  cases hm : s.mode with
  | pixelTransfer =>
    rcases tick_pixelTransfer_cases n hm with ⟨u, _, hu, e⟩ | ⟨c, u, _, hu, e⟩ | ⟨r, u, _, hu, e⟩ <;> rw [e]
    · left
      simp only [controllerArm, State.setCyc_mode, hm]
      exact ptExit_same hu
    · exact .inr (.inl (hu.trans ⟨rfl, rfl, rfl, rfl, rfl, rfl, rfl, rfl⟩))
    · exact .inr (.inr ⟨rfl, rfl, rfl, rfl, hu.mem, hu.responses, hu.port, hu.cfg⟩)
  | oamSearch | hblank | vblank =>
    left
    simp only [controllerArm, commandBody, modeArm, State.setCyc_mode, hm, settle_go]
    exact .refl _

/-- Everything a command can do to the controller. -/
theorem exec_cases {i : Instr} {s t : State} (h : exec i s = .next t) :
    (∃ n, i = .tick n ∧ (SameController (controllerArm (s.setCyc (s.cyc + n))) t ∨
      SameController (s.setCyc (s.cyc + n)) t ∨ SameController s t)) ∨
    (i = .reset ∧ t = blockReset s) ∨
    ((∀ n, i ≠ .tick n) ∧ i ≠ .reset ∧ ControllerKept s t) := by
  obtain ⟨_, rfl⟩ := exec_next h
  cases i with
  | tick n => exact .inl ⟨n, rfl, settle_tick_same n s⟩
  | reset => exact .inr (.inl ⟨rfl, rfl⟩)
  | fproc => exact .inr (.inr ⟨nofun, nofun, settle_fetcherStep_kept s⟩)
  | freset | resolve => exact .inr (.inr ⟨nofun, nofun, ⟨rfl, rfl, rfl, rfl, rfl, rfl⟩⟩)

/-! ## What the arms do to the controller -/

theorem controllerArm_of_lt {s : State} (h : s.cyc < modeBudget s.mode) : controllerArm s = s := by
  cases hm : s.mode <;> rw [hm] at h <;> simp only [controllerArm, hm]
  · exact hblankArm_of_lt h
  · exact vblankArm_of_lt h
  · exact oamArm_of_lt h
  · exact ptExit_of_lt h

theorem oamArm_mem (s : State) : (oamArm s).mem = s.mem := by
  rcases Nat.lt_or_ge s.cyc oamBudget with hc | hc
  · rw [oamArm_of_lt hc]
  · rw [oamArm_exit hc]

theorem ptExit_mem (s : State) : (ptExit s).mem = s.mem := by
  rcases Nat.lt_or_ge s.cyc ptBudget with hc | hc
  · rw [ptExit_of_lt hc]
  · rw [ptExit_exit hc]

theorem controllerArm_port_cfg (s : State) : (controllerArm s).port = s.port ∧ (controllerArm s).cfg = s.cfg := by
  rcases Nat.lt_or_ge s.cyc (modeBudget s.mode) with hc | hc
  · rw [controllerArm_of_lt hc]
    exact ⟨rfl, rfl⟩
  · cases hm : s.mode <;> rw [hm] at hc <;> simp only [controllerArm, hm]
    · rw [hblankArm_exit hc]; exact ⟨rfl, rfl⟩
    · rw [vblankArm_exit hc]; exact ⟨rfl, rfl⟩
    · rw [oamArm_exit hc]; exact ⟨rfl, rfl⟩
    · rw [ptExit_exit hc]; exact ⟨rfl, rfl⟩

/-- Memory is written at the HBLANK and VBLANK exits alone (R64). -/
theorem controllerArm_mem {s : State} (h : modeBudget s.mode ≤ s.cyc → s.mode ≠ .hblank ∧ s.mode ≠ .vblank) :
    (controllerArm s).mem = s.mem := by
  rcases Nat.lt_or_ge s.cyc (modeBudget s.mode) with hc | hc
  · rw [controllerArm_of_lt hc]
  · obtain ⟨hh, hv⟩ := h hc
    cases hm : s.mode <;> rw [hm] at hc <;> simp only [controllerArm, hm]
    · exact absurd hm hh
    · exact absurd hm hv
    · exact oamArm_mem s
    · exact ptExit_mem s

/-- Frame-ready is written at the VBLANK wrap alone, which sets it (R122). -/
theorem controllerArm_frameReady (s : State) :
    (controllerArm s).cur.frameReady = s.cur.frameReady ∨
    (controllerArm s).cur.frameReady = true ∧ s.mode = .vblank ∧ 456 ≤ s.cyc ∧
      s.cfg.visibleRows + 9 < s.cur.row + 1 := by
  rcases Nat.lt_or_ge s.cyc (modeBudget s.mode) with hc | hc
  · rw [controllerArm_of_lt hc]
    exact .inl rfl
  · cases hm : s.mode <;> rw [hm] at hc <;> simp only [controllerArm, hm]
    · rw [hblankArm_exit hc]; exact .inl rfl
    · rw [vblankArm_exit hc]
      by_cases hw : s.cfg.visibleRows + 9 < s.cur.row + 1
      · exact .inr ⟨by simp [hw], trivial, hc, hw⟩
      · exact .inl (by simp [hw])
    · rw [oamArm_exit hc]; exact .inl rfl
    · rw [ptExit_exit hc]; exact .inl rfl

/-- LY at the two exits that write it: the row before its increment (R119, R121). -/
theorem controllerArm_ly {s : State} (hw : Memory.wf s.mem = true) (hc : modeBudget s.mode ≤ s.cyc)
    (hm : s.mode = .hblank ∨ s.mode = .vblank) : Memory.read (controllerArm s).mem s.cfg.addrLy = lyByte s := by
  rcases hm with hm | hm <;> rw [hm] at hc <;> simp only [controllerArm, hm]
  · rw [hblankArm_exit hc]
    exact Memory.read_write_same (raiseLatched_wf hw _ _ _) _ _
  · rw [vblankArm_exit hc]
    exact Memory.read_write_same (raiseLatched_wf hw _ _ _) _ _

/-! ## Frames of a command -/

theorem exec_port_cfg {i : Instr} {s t : State} (h : exec i s = .next t) : t.port = s.port ∧ t.cfg = s.cfg := by
  rcases exec_cases h with ⟨n, _, k | k | k⟩ | ⟨_, rfl⟩ | ⟨_, _, k⟩
  · obtain ⟨hp, hc⟩ := controllerArm_port_cfg (s.setCyc (s.cyc + n))
    exact ⟨k.port.trans hp, k.cfg.trans hc⟩
  · exact ⟨k.port, k.cfg⟩
  · exact ⟨k.port, k.cfg⟩
  · exact ⟨rfl, rfl⟩
  · exact ⟨k.port, k.cfg⟩

/-- Only a TICK that makes an HBLANK or VBLANK exit writes memory (R64). -/
theorem exec_mem {i : Instr} {s t : State} (h : exec i s = .next t)
    (hi : ∀ n, i = .tick n → ExitDue n s → s.mode ≠ .hblank ∧ s.mode ≠ .vblank) : t.mem = s.mem := by
  rcases exec_cases h with ⟨n, hn, k | k | k⟩ | ⟨_, rfl⟩ | ⟨_, _, k⟩
  · exact k.mem.trans (controllerArm_mem (s := s.setCyc (s.cyc + n)) (hi n hn))
  · exact k.mem
  · exact k.mem
  · rfl
  · exact k.mem

/-- Settles O47: the command's frame is one of the cases of `exec_cases`, and memory is `exec_mem`. -/
theorem onlyTickAndResetMoveTheController : Obligations.OnlyTickAndResetMoveTheController := by
  intro i s t h
  refine ⟨fun hi => ⟨exec_mem h fun n hn => absurd hn (hi n), exec_port_cfg h⟩, fun hi hr => ?_,
    fun n hn hd => exec_mem h fun m hm => ?_⟩
  · rcases exec_cases h with ⟨n, hn, _⟩ | ⟨hr', _⟩ | ⟨_, _, k⟩
    · exact absurd hn (hi n)
    · exact absurd hr' hr
    · exact ⟨k.mode, k.cyc, k.cur⟩
  · obtain rfl : n = m := by simpa [hn] using hm
    exact fun hd' => absurd hd' hd

/-- Settles O45: the two exits write the row to LY last, and any other command leaves memory whole. -/
theorem lyIsWrittenAtTheTwoExitsOnly : Obligations.LyIsWrittenAtTheTwoExitsOnly := by
  intro i s t _ hw h
  obtain ⟨_, hcfg⟩ := exec_port_cfg h
  refine ⟨?_, fun hi => by rw [readReg, readReg, exec_mem h hi, hcfg]⟩
  rintro n rfl hd hm
  have harm : t = controllerArm (s.setCyc (s.cyc + n)) := by
    obtain ⟨_, rfl⟩ := exec_next h
    rcases hm with hm | hm <;> simp only [commandBody, modeArm, controllerArm, State.setCyc_mode, hm, settle_go]
  have hly : Memory.read t.mem s.cfg.addrLy = lyByte s := by
    rw [harm]
    exact controllerArm_ly (s := s.setCyc (s.cyc + n)) hw hd hm
  rw [readReg, hcfg, regAddr, hly, lyByte]
  exact BitVec.eq_of_toNat_eq (by simp)

/-! ## Steps at the port -/

theorem step_of_running {s : State} (h : s.Running) : step s = stepPort s := whenRunning_of_running h _

/-- Everything a step can be (R85, R92, R227): nothing at the port, a command, a refused word, or another move. -/
theorem step_cases {s t : State} (h : step s = .next t) :
    (s.port = [] ∧ t = s) ∨
    (∃ w i rest, s.port = .command w :: rest ∧ decode w = .ok i ∧ exec i (s.setPort rest) = .next t) ∨
    (∃ w rest, s.port = .command w :: rest ∧ t = (s.setPort rest).setRefused) ∨
    (∃ m rest, s.port = m :: rest ∧ t = applyMove m (s.setPort rest)) := by
  obtain ⟨_, h⟩ := whenRunning_next h
  unfold stepPort at h
  split at h
  next hp => exact .inl ⟨hp, by cases h; rfl⟩
  next w rest hp =>
    unfold stepWord at h
    split at h
    next i hi => exact .inr (.inl ⟨w, i, rest, hp, hi, h⟩)
    next => exact .inr (.inr (.inl ⟨w, rest, hp, by cases h; rfl⟩))
  all_goals exact .inr (.inr (.inr ⟨_, _, ‹_›, by cases h; rfl⟩))

/-- Settles O10: each move's update of the state is the one the statement writes. -/
theorem hostMovesChangeOnlyWhatTheyName : Obligations.HostMovesChangeOnlyWhatTheyName := by
  intro s rest hs hw
  rw [step_of_running hs]
  refine ⟨fun r v hp => ⟨Memory.write s.mem (regAddr s.cfg r) v, ?_, Memory.wf_write hw _ _,
    Memory.read_write hw _ _⟩, fun r hp => ?_, fun hp => ?_, fun hp => ?_⟩ <;> simp only [stepPort, hp]
  · rfl
  · rfl
  · rfl

/-! ## Frame-ready -/

/-- A command that changes frame-ready is a TICK that wraps the frame, which sets it, or RESET, which clears it. -/
theorem exec_frameReady {i : Instr} {s t : State} (h : exec i s = .next t) :
    t.cur.frameReady = s.cur.frameReady ∨
    (t.cur.frameReady = true ∧ ∃ n, i = .tick n ∧ s.mode = .vblank ∧ 456 ≤ s.cyc + n ∧
      s.cfg.visibleRows + 9 < s.cur.row + 1) ∨
    (t.cur.frameReady = false ∧ i = .reset) := by
  rcases exec_cases h with ⟨n, hn, k | k | k⟩ | ⟨hr, rfl⟩ | ⟨_, _, k⟩
  · rcases controllerArm_frameReady (s.setCyc (s.cyc + n)) with e | ⟨e, hw⟩
    · exact .inl (k.frameReady.trans e)
    · exact .inr (.inl ⟨k.frameReady.trans e, n, hn, hw⟩)
  · exact .inl k.frameReady
  · exact .inl k.frameReady
  · exact .inr (.inr ⟨rfl, hr⟩)
  · exact .inl (congrArg _ k.cur)

/-- A move other than a command writes frame-ready only to clear it (R82). -/
theorem applyMove_frameReady (m : HostMove) (s : State) :
    (applyMove m s).cur.frameReady = s.cur.frameReady ∨
    (applyMove m s).cur.frameReady = false ∧ m = .clearFrameReady := by
  cases m with
  | clearFrameReady => exact .inr ⟨rfl, rfl⟩
  | command | writeReg | readReg => exact .inl rfl

/-- Settles O46: over the cases of a step, frame-ready changes at the wrap, at RESET and at the consumer's move. -/
theorem whoWritesFrameReady : Obligations.WhoWritesFrameReady := by
  intro s t h
  rcases step_cases h with ⟨_, rfl⟩ | ⟨w, i, rest, hp, hw, h⟩ | ⟨w, rest, _, rfl⟩ | ⟨m, rest, hp, rfl⟩
  · simp_all
  · rcases exec_frameReady h with e | ⟨e, n, rfl, hwrap⟩ | ⟨e, rfl⟩
    · simp_all
    · exact ⟨fun _ _ => ⟨w, n, rest, hp, hw, hwrap⟩, by simp [e]⟩
    · exact ⟨by simp [e], fun _ _ => ⟨_, rest, hp, .inr ⟨w, rfl, hw⟩⟩⟩
  · simp_all
  · rcases applyMove_frameReady m (s.setPort rest) with e | ⟨e, rfl⟩
    · simp_all
    · exact ⟨by simp [e], fun _ _ => ⟨_, rest, hp, .inl rfl⟩⟩

/-! ## The invariant -/

theorem State.Inv.inFrame {s : State} (h : s.Inv) : s.InFrame := ⟨h.cfg_wf, h.mem_wf, h.row⟩

theorem State.InFrame.inv {s : State} (h : s.InFrame) (hf : s.f.Inv) : s.Inv := ⟨h.cfg_wf, h.mem_wf, hf, h.row⟩

theorem State.InFrame.congr {s t : State} (h : s.InFrame) (hmode : t.mode = s.mode) (hrow : t.cur.row = s.cur.row)
    (hmem : t.mem = s.mem) (hcfg : t.cfg = s.cfg) : t.InFrame :=
  ⟨hcfg ▸ h.cfg_wf, hmem ▸ h.mem_wf, by rw [hcfg, hmode, hrow]; exact h.row⟩

theorem State.InFrame.same {s t : State} (h : s.InFrame) (k : SameController s t) : t.InFrame :=
  h.congr k.mode k.row k.mem k.cfg

/-- An exit does the same however far the counter is past the budget; the counter keeps the rest (R125). -/
theorem controllerArm_exit_same {s : State} (h : modeBudget s.mode ≤ s.cyc) :
    SameController ((controllerArm (s.setCyc (modeBudget s.mode))).setCyc (s.cyc - modeBudget s.mode))
      (controllerArm s) := by
  cases hm : s.mode <;> rw [hm] at h <;> simp only [controllerArm, State.setCyc_mode, hm]
  · rw [hblankArm_exit h, hblankArm_exit (s := s.setCyc _) (by exact le_rfl)]
    simp only [raiseLatched_mem]
    exact ⟨rfl, rfl, rfl, rfl, rfl, rfl, rfl, rfl⟩
  · rw [vblankArm_exit h, vblankArm_exit (s := s.setCyc _) (by exact le_rfl)]
    simp only [raiseLatched_mem]
    exact ⟨rfl, rfl, rfl, rfl, rfl, rfl, rfl, rfl⟩
  · rw [oamArm_exit h, oamArm_exit (s := s.setCyc _) (by exact le_rfl)]
    exact ⟨rfl, rfl, rfl, rfl, rfl, rfl, rfl, rfl⟩
  · rw [ptExit_exit h, ptExit_exit (s := s.setCyc _) (by exact le_rfl)]
    exact ⟨rfl, rfl, rfl, rfl, rfl, rfl, rfl, rfl⟩

/-- Each arm leaves the row in the range of the mode it leaves (R27, R120, R122). -/
theorem controllerArm_inFrame {s : State} (h : s.InFrame) : (controllerArm s).InFrame := by
  rcases Nat.lt_or_ge s.cyc (modeBudget s.mode) with hc | hc
  · rwa [controllerArm_of_lt hc]
  · have hstep := controllerArm_frameStep (s := s.setCyc (modeBudget s.mode)) ⟨h.cfg_wf, h.mem_wf, h.row⟩
      (Nat.lt_add_of_pos_right (by decide))
    have hexit : ((controllerArm (s.setCyc (modeBudget s.mode))).setCyc (s.cyc - modeBudget s.mode)).InFrame :=
      hstep.onSchedule.toInFrame.congr rfl rfl rfl rfl
    exact hexit.same (controllerArm_exit_same hc)

theorem exec_inFrame {i : Instr} {s t : State} (hs : s.InFrame) (h : exec i s = .next t) : t.InFrame := by
  have hcount : ∀ n, (s.setCyc n).InFrame := fun _ => hs.congr rfl rfl rfl rfl
  rcases exec_cases h with ⟨n, hn, k | k | k⟩ | ⟨_, rfl⟩ | ⟨_, _, k⟩
  · exact (controllerArm_inFrame (hcount _)).same k
  · exact (hcount _).same k
  · exact hs.same k
  · exact ⟨hs.cfg_wf, hs.mem_wf, hs.cfg_wf.visibleRows_pos⟩
  · exact hs.congr k.mode (congrArg _ k.cur) k.mem k.cfg

/-- The PIXEL_TRANSFER exit resets the Fetcher (R116). -/
theorem ptExit_fetcher_inv {s : State} (h : s.f.Inv) : (ptExit s).f.Inv := by
  rcases Nat.lt_or_ge s.cyc ptBudget with hc | hc
  · rwa [ptExit_of_lt hc]
  · rw [ptExit_exit hc]
    exact fetcherReset_inv h

/-- Outside PIXEL_TRANSFER the arms leave the Fetcher alone. -/
theorem controllerArm_fetcher {s : State} (h : s.mode ≠ .pixelTransfer) : (controllerArm s).f = s.f := by
  rcases Nat.lt_or_ge s.cyc (modeBudget s.mode) with hc | hc
  · rw [controllerArm_of_lt hc]
  · cases hm : s.mode <;> rw [hm] at hc <;> simp only [controllerArm, hm]
    · rw [hblankArm_exit hc]
    · rw [vblankArm_exit hc]
    · rw [oamArm_exit hc]
    · exact absurd hm h

theorem modeArm_fetcher_inv (n : Nat) {s : State} (h : s.f.Inv) : (modeArm n s).All fun t => t.f.Inv := by
  cases hm : s.mode with
  | pixelTransfer =>
    simp only [modeArm, hm, ptArm]
    exact (innerLoop_inv h n n n).andThen (fun _ => id) fun _ => ptExit_fetcher_inv
  | oamSearch | hblank | vblank =>
    have hf := controllerArm_fetcher (s := s) (by simp [hm])
    simp only [controllerArm, hm] at hf
    simp only [modeArm, hm, Flow.all_go, hf, h]

theorem commandBody_fetcher_inv (i : Instr) {s : State} (h : s.f.Inv) : (commandBody i s).All fun t => t.f.Inv := by
  cases i with
  | tick n => exact modeArm_fetcher_inv (s := s.setCyc _) n h
  | fproc => exact (fetcherStep_inv h).1
  | freset => exact fetcherReset_inv h
  | resolve => exact h
  | reset => exact Fetcher.reset_inv

theorem exec_inv {i : Instr} {s t : State} (hs : s.Inv) (h : exec i s = .next t) : t.Inv := by
  refine (exec_inFrame hs.inFrame h).inv ?_
  obtain ⟨_, rfl⟩ := exec_next h
  exact settle_of_all (P := fun t => t.f.Inv) (commandBody_fetcher_inv i hs.fetcher) (fun _ _ => hs.fetcher)
    (fun _ _ => id)

theorem applyMove_inv {s : State} (h : s.Inv) (m : HostMove) : (applyMove m s).Inv := by
  have hw := applyMove_wf h.mem_wf m
  cases m <;> exact ⟨h.cfg_wf, hw, h.fetcher, h.row⟩

/-- Settles O15: the controller's part of the invariant goes over the cases of a command, the Fetcher's part through its
procedure; every other move changes memory by one write at most. -/
theorem everyStepKeepsTheInvariant : Obligations.EveryStepKeepsTheInvariant := by
  intro s t hs h
  have hport : ∀ rest, (s.setPort rest).Inv := fun _ => ⟨hs.cfg_wf, hs.mem_wf, hs.fetcher, hs.row⟩
  rcases step_cases h with ⟨_, rfl⟩ | ⟨_, i, rest, _, _, h⟩ | ⟨_, rest, _, rfl⟩ | ⟨m, rest, _, rfl⟩
  · exact hs
  · exact exec_inv (hport rest) h
  · exact ⟨hs.cfg_wf, hs.mem_wf, hs.fetcher, hs.row⟩
  · exact applyMove_inv (hport rest) m

theorem launch_inv {c : Config} (hc : c.Wf) (r : InitRegs) (moves : List HostMove) (env : Collaborators) :
    (launch c r moves env).Inv :=
  ⟨hc, initMemory_wf c r, Fetcher.reset_inv, hc.visibleRows_pos⟩

/-- `State.reset` is a power-on with the default parameters and every register 0 (notes/assumptions/2.md). -/
theorem reset_eq_launch : State.reset = launch defaultConfig ⟨0, 0, 0, 0, 0, 0, 0⟩ [] .fresh := rfl

/-- Settles O16: power-on starts OAM_SEARCH at row 0 with the Fetcher reset and INIT_REGS in canonical memory. -/
theorem invariantHoldsAtPowerOn : Obligations.InvariantHoldsAtPowerOn := by
  refine ⟨?_, fun c r moves env hc => launch_inv hc r moves env⟩
  rw [reset_eq_launch]
  exact launch_inv ((Laws.configWf_iff defaultConfig).1 (by decide)) _ _ _

/-! ## Other bytes never reach the block -/

/-- A flow with the state it holds replaced. -/
def Flow.map (g : State → State) : Flow → Flow
  | .go s       => .go (g s)
  | .raise c s  => .raise c (g s)
  | .refuse r s => .refuse r (g s)

@[simp] theorem Flow.map_go (g : State → State) (s : State) : (Flow.go s).map g = .go (g s) := rfl
@[simp] theorem Flow.map_raise (g : State → State) (c : FaultCode) (s : State) :
    (Flow.raise c s).map g = .raise c (g s) := rfl
@[simp] theorem Flow.map_refuse (g : State → State) (r : RefuseReason) (s : State) :
    (Flow.refuse r s).map g = .refuse r (g s) := rfl

/-- Sequencing commutes with a replacement the next procedure commutes with. -/
theorem Flow.map_andThen {g : State → State} {P : State → Prop} {x : Flow} {k : State → Flow} (h : x.All P)
    (hk : ∀ s, P s → k (g s) = (k s).map g) : (x.map g).andThen k = (x.andThen k).map g := by
  cases x with
  | go s => exact hk s h
  | raise | refuse => rfl

theorem settle_map_setMem (pre : State) (m m' : Memory) (x : Flow) :
    settle (pre.setMem m) (x.map (·.setMem m')) = (settle pre x).setMem m' := by
  cases x <;> rfl

theorem readTileNum_setMem {s : State} {m : Memory} (h : SameReadRegs s.cfg s.mem m) :
    readTileNum (s.setMem m) = (readTileNum s).setMem m := by
  have hscx : Memory.read s.mem s.cfg.addrScx = Memory.read m s.cfg.addrScx := h .scx (by simp)
  have hscy : Memory.read s.mem s.cfg.addrScy = Memory.read m s.cfg.addrScy := h .scy (by simp)
  rw [readTileNum_eq, readTileNum_eq, hscx, hscy]
  rfl

theorem readData0_setMem (s : State) (m : Memory) : readData0 (s.setMem m) = (readData0 s).map (·.setMem m) := by
  simp only [readData0, State.setMem_f]
  cases s.f.tileIndex <;> rfl

theorem readData1_setMem (s : State) (m : Memory) : readData1 (s.setMem m) = (readData1 s).map (·.setMem m) := by
  simp only [readData1, State.setMem_f]
  cases s.f.tile with
  | none => rfl
  | some t =>
    dsimp only
    rw [apply_ite (Flow.map _)]
    rfl

theorem fetcherWork_setMem {s : State} {m : Memory} (h : SameReadRegs s.cfg s.mem m) :
    fetcherWork (s.setMem m) = (fetcherWork s).map (·.setMem m) := by
  cases hs : s.f.state <;> simp only [fetcherWork, State.setMem_f, hs]
  · rw [readTileNum_setMem h]; rfl
  · rw [readData0_setMem]; cases readData0 s <;> rfl
  · rw [readData1_setMem]; cases readData1 s <;> rfl
  · rfl

/-- A fetch step reads SCX and SCY of memory, and nothing else (R142). -/
theorem fetcherStep_setMem {s : State} {m : Memory} (h : SameReadRegs s.cfg s.mem m) :
    fetcherStep (s.setMem m) = (fetcherStep s).map (·.setMem m) := by
  rw [fetcherStep, fetcherStep, apply_ite (Flow.map _), apply_ite (Flow.map _),
    ← fetcherWork_setMem (s := setAcc 0 s) h]
  rfl

theorem handOff_setMem (s : State) (m : Memory) : handOff (s.setMem m) = (handOff s).map (·.setMem m) := by
  rcases handOff_cases s with ⟨hs, e⟩ | ⟨hs, hb, e⟩ | ⟨hs, hb, hp, e⟩ | ⟨hs, hb, p, hp, e⟩ <;> rw [e]
  · simp [handOff, hs]
  · simp [handOff, hs, hb]; rfl
  · simp [handOff, hs, hb, hp]; rfl
  · simp [handOff, hs, hb, hp]; rfl

/-- The inner loop reads SCX and SCY of memory, and nothing else. -/
theorem innerLoop_setMem (n fuel : Nat) (m : Memory) : ∀ (rem : Int) (s : State), SameReadRegs s.cfg s.mem m →
    innerLoop n fuel rem (s.setMem m) = (innerLoop n fuel rem s).map (·.setMem m) := by
  induction fuel with
  | zero => exact fun _ _ _ => rfl
  | succ fuel ih =>
    intro rem s h
    have hp : (pipeProcess (s.setMem m)).2 = (pipeProcess s).2.setMem m := rfl
    rw [innerLoop_succ, innerLoop_succ, State.setMem_collab, hp]
    split
    · split
      · rfl
      · rw [fetcherStep_setMem (s := (pipeProcess s).2) h]
        refine Flow.map_andThen (fetcherStep_frame _) fun t ht => ?_
        simp only [handOff_setMem]
        refine Flow.map_andThen (handOff_same t) fun u hu => ih _ u ?_
        rw [hu.1.cfg, hu.1.mem, ht.same.cfg, ht.same.mem]
        exact h
    · rfl

theorem oamArm_setMem {s : State} {m : Memory} (h : SameReadRegs s.cfg s.mem m) :
    oamArm (s.setMem m) = (oamArm s).setMem m := by
  have hlcdc : Memory.read s.mem s.cfg.addrLcdc = Memory.read m s.cfg.addrLcdc := h .lcdc (by simp)
  rcases Nat.lt_or_ge s.cyc oamBudget with hc | hc
  · rw [oamArm_of_lt hc, oamArm_of_lt (s := s.setMem m) hc]
  · rw [oamArm_exit hc, oamArm_exit (s := s.setMem m) hc, hlcdc]
    rfl

theorem ptExit_setMem (s : State) (m : Memory) : ptExit (s.setMem m) = (ptExit s).setMem m := by
  rcases Nat.lt_or_ge s.cyc ptBudget with hc | hc
  · rw [ptExit_of_lt hc, ptExit_of_lt (s := s.setMem m) hc]
  · rw [ptExit_exit hc, ptExit_exit (s := s.setMem m) hc]
    rfl

/-- Two canonical memories that differ at most in bytes the block does not read. -/
structure OnlyOtherBytesDiffer (c : Config) (m m' : Memory) : Prop where
  wf   : Memory.wf m = true
  wf'  : Memory.wf m' = true
  regs : SameReadRegs c m m'

theorem OnlyOtherBytesDiffer.write {c : Config} {m m' : Memory} (h : OnlyOtherBytesDiffer c m m') (a : Nat) (v : Byte) :
    OnlyOtherBytesDiffer c (Memory.write m a v) (Memory.write m' a v) :=
  ⟨Memory.wf_write h.wf a v, Memory.wf_write h.wf' a v, fun r hr => by
    rw [Memory.read_write h.wf, Memory.read_write h.wf', h.regs r hr]⟩

section Writes

variable {s : State} {m : Memory} (h : OnlyOtherBytesDiffer s.cfg s.mem m)

include h

theorem memRmwSet_setMem {a : Nat} (ha : Memory.read s.mem a = Memory.read m a) (mask : Byte) :
    ∃ m', memRmwSet a mask (s.setMem m) = (memRmwSet a mask s).setMem m' ∧
      OnlyOtherBytesDiffer s.cfg (memRmwSet a mask s).mem m' := by
  refine ⟨Memory.write m a (Memory.read s.mem a ||| mask), ?_, ?_⟩
  · rw [memRmwSet_eq, memRmwSet_eq, State.setMem_mem, ha]
    rfl
  · rw [memRmwSet_eq]
    exact h.write a _

/-- The latched raise reads STAT and IF, and sets the same bits in both memories (R118). -/
theorem raiseLatched_setMem (test set : Byte) (b : Fin 8) :
    ∃ m', raiseLatched test set b (s.setMem m) = (raiseLatched test set b s).setMem m' ∧
      OnlyOtherBytesDiffer s.cfg (raiseLatched test set b s).mem m' := by
  have hstat : Memory.read s.mem s.cfg.addrStat = Memory.read m s.cfg.addrStat := h.regs .stat (by simp)
  rw [raiseLatched_eq, raiseLatched_eq, State.setMem_mem, State.setMem_cfg, ← hstat]
  split
  · exact ⟨m, rfl, h⟩
  · obtain ⟨m₁, e₁, h₁⟩ := memRmwSet_setMem (s := s.log (.memRead _ (Memory.read s.mem s.cfg.addrStat))) h
      (h.regs .iflag (by simp)) (bitMask b)
    obtain ⟨m₂, e₂, h₂⟩ := memRmwSet_setMem h₁ (h₁.regs .stat (by simp)) set
    exact ⟨m₂, (congrArg _ e₁).trans e₂, h₂⟩

theorem hblankArm_setMem :
    ∃ m', hblankArm (s.setMem m) = (hblankArm s).setMem m' ∧ SameReadRegs s.cfg (hblankArm s).mem m' := by
  rcases Nat.lt_or_ge s.cyc hblankBudget with hc | hc
  · rw [hblankArm_of_lt hc, hblankArm_of_lt (s := s.setMem m) hc]
    exact ⟨m, rfl, h.regs⟩
  · obtain ⟨m', e, h'⟩ := raiseLatched_setMem h s.cfg.statM0Test s.cfg.statM0Set s.cfg.irq.lcdcStat.bit
    rw [hblankArm_exit hc, hblankArm_exit (s := s.setMem m) hc]
    simp only [State.setMem_cfg, e]
    exact ⟨_, rfl, (h'.write _ _).regs⟩

theorem vblankArm_setMem :
    ∃ m', vblankArm (s.setMem m) = (vblankArm s).setMem m' ∧ SameReadRegs s.cfg (vblankArm s).mem m' := by
  rcases Nat.lt_or_ge s.cyc vblankLineBudget with hc | hc
  · rw [vblankArm_of_lt hc, vblankArm_of_lt (s := s.setMem m) hc]
    exact ⟨m, rfl, h.regs⟩
  · obtain ⟨m', e, h'⟩ := raiseLatched_setMem h s.cfg.statM1Test s.cfg.statM1Set s.cfg.irq.vblank.bit
    rw [vblankArm_exit hc, vblankArm_exit (s := s.setMem m) hc]
    simp only [State.setMem_cfg, e]
    exact ⟨_, rfl, (h'.write _ _).regs⟩

theorem modeArm_setMem (n : Nat) :
    ∃ m', modeArm n (s.setMem m) = (modeArm n s).map (·.setMem m') ∧
      (modeArm n s).All fun t => SameReadRegs s.cfg t.mem m' := by
  cases hm : s.mode <;> simp only [modeArm, State.setMem_mode, hm]
  case oamSearch =>
    refine ⟨m, congrArg Flow.go (oamArm_setMem h.regs), ?_⟩
    rw [Flow.all_go, oamArm_mem]
    exact h.regs
  case pixelTransfer =>
    refine ⟨m, ?_, (innerLoop_same n n n s).andThen (fun t k => ?_) fun t k => ?_⟩
    · rw [ptArm, innerLoop_setMem n n m n s h.regs]
      exact Flow.map_andThen (innerLoop_same n n n s) fun t _ => congrArg Flow.go (ptExit_setMem t m)
    · rw [k.mem]
      exact h.regs
    · rw [Flow.all_go, ptExit_mem, k.mem]
      exact h.regs
  case hblank =>
    obtain ⟨m', e, h'⟩ := hblankArm_setMem h
    exact ⟨m', congrArg Flow.go e, h'⟩
  case vblank =>
    obtain ⟨m', e, h'⟩ := vblankArm_setMem h
    exact ⟨m', congrArg Flow.go e, h'⟩

theorem commandBody_setMem (i : Instr) :
    ∃ m', commandBody i (s.setMem m) = (commandBody i s).map (·.setMem m') ∧
      (commandBody i s).All fun t => SameReadRegs s.cfg t.mem m' := by
  cases i with
  | tick n => exact modeArm_setMem (s := s.setCyc (s.cyc + n)) h n
  | fproc =>
    refine ⟨m, fetcherStep_setMem h.regs, (fetcherStep_frame s).imp fun t k => ?_⟩
    rw [k.same.mem]
    exact h.regs
  | freset | resolve | reset => exact ⟨m, rfl, h.regs⟩

end Writes

/-- Settles O48: the command's procedure commutes with the change of the other bytes, and so does settling it. -/
theorem otherBytesNeverReachTheBlock : Obligations.OtherBytesNeverReachTheBlock := by
  intro i s t m _ hw hm hregs h
  obtain ⟨hs, rfl⟩ := exec_next h
  obtain ⟨m', e, hall⟩ := commandBody_setMem ⟨hw, hm, hregs⟩ i
  refine ⟨m', ?_, settle_of_all (P := fun t => SameReadRegs s.cfg t.mem m') hall (fun _ => id) fun _ _ => id⟩
  have hexec := exec_of_running (s := s.setMem m) ⟨hs.no_fault, hs.no_refusal⟩ i
  rwa [e, settle_map_setMem] at hexec

end Sys2Proof.Machine

/-! Memory and the record of its accesses (spec/20_memory.md). A canonical memory is determined by its bytes. What the
commands record is said once for each procedure: each of them only adds to the event history, and a fetch step adds at
most the reads of SCX and SCY to the memory accesses. -/

namespace Sys2Proof.Machine

/-! ## A canonical memory is determined by its bytes -/

/-- A listed byte is not what an unlisted address reads as, so two canonical memories that read alike have no listed
address of one below every listed address of the other. -/
theorem Memory.not_head_lt_of_read_eq {a : Nat} {v : Byte} {m m' : Memory} (h : Memory.wf ((a, v) :: m) = true)
    (hr : Memory.read ((a, v) :: m) a = Memory.read m' a) : ¬ ∀ c ∈ m', a < c.1 := by
  intro hlt
  rw [Memory.read_cons, if_pos rfl, Memory.read_of_lt hlt] at hr
  exact (Memory.wf_cons.1 h).1 hr

/-- An address below a canonical memory's head is below all of it. -/
theorem Memory.lt_of_lt_head {x a : Nat} {v : Byte} {m : Memory} (h : Memory.wf ((a, v) :: m) = true) (hx : x < a) :
    ∀ c ∈ (a, v) :: m, x < c.1 := by
  obtain ⟨_, hlt, _⟩ := Memory.wf_cons.1 h
  rintro c (_ | ⟨_, hc⟩)
  · exact hx
  · exact Nat.lt_trans hx (hlt c hc)

/-- Below one head, what the tails read is what the whole memories read. -/
theorem Memory.read_tail_eq {a : Nat} {v w : Byte} {m m' : Memory} (h : ∀ c ∈ m, a < c.1) (h' : ∀ c ∈ m', a < c.1)
    (hr : ∀ x, Memory.read ((a, v) :: m) x = Memory.read ((a, w) :: m') x) (x : Nat) :
    Memory.read m x = Memory.read m' x := by
  by_cases hx : a = x
  · subst hx
    rw [Memory.read_of_lt h, Memory.read_of_lt h']
  · simpa only [Memory.read_cons, if_neg hx] using hr x

/-- Settles O18, by induction on the first memory: the two heads have one address, hence one byte, and the tails read
alike. -/
theorem memoriesWithEqualBytesAreEqual : Obligations.MemoriesWithEqualBytesAreEqual := by
  intro m
  induction m with
  | nil =>
    rintro (_ | ⟨⟨b, w⟩, m'⟩) _ hw' hr
    · rfl
    · exact absurd (by simp) (Memory.not_head_lt_of_read_eq hw' (hr b).symm)
  | cons d m ih =>
    obtain ⟨a, v⟩ := d
    rintro (_ | ⟨⟨b, w⟩, m'⟩) hw hw' hr
    · exact absurd (by simp) (Memory.not_head_lt_of_read_eq hw (hr a))
    · obtain ⟨_, hlt, hm⟩ := Memory.wf_cons.1 hw
      obtain ⟨_, hlt', hm'⟩ := Memory.wf_cons.1 hw'
      rcases Nat.lt_trichotomy a b with hab | rfl | hab
      · exact absurd (Memory.lt_of_lt_head hw' hab) (Memory.not_head_lt_of_read_eq hw (hr a))
      · obtain rfl : v = w := by simpa [Memory.read_cons] using hr a
        rw [ih m' hm hm' (Memory.read_tail_eq hlt hlt' hr)]
      · exact absurd (Memory.lt_of_lt_head hw hab) (Memory.not_head_lt_of_read_eq hw' (hr b).symm)

/-! ## What a fetch step records -/

/-- `t`'s history is `s`'s and the events of at most one fetch step: no row handed over, and of memory nothing, or a
read of SCX and then of SCY (R142). -/
def FetchRecord (s t : State) : Prop :=
  ∃ new, t.history = s.history ++ new ∧ loadCount new = 0 ∧
    (memoryEvents new = [] ∨
      memoryEvents new = [.memRead s.cfg.addrScx (readReg s .scx), .memRead s.cfg.addrScy (readReg s .scy)])

theorem FetchRecord.of_history_eq {s t : State} (h : t.history = s.history) : FetchRecord s t :=
  ⟨[], by simp [h], rfl, .inl rfl⟩

theorem FetchRecord.history_grows {s t : State} (h : FetchRecord s t) : s.history <+: t.history := by
  obtain ⟨new, e, _⟩ := h
  exact ⟨new, e.symm⟩

/-- Only READ_TILE_NUM reads memory; the two data steps record one collaborator call at most (R142-R144). -/
theorem fetcherStep_record (s : State) : (fetcherStep s).All (FetchRecord s) := by
  rcases fetcherStep_cases s with ⟨_, e⟩ | ⟨_, _, e⟩ | ⟨_, _, e⟩ | ⟨_, _, e⟩ | ⟨_, _, e⟩ <;> rw [e]
  · exact .of_history_eq rfl
  · exact .of_history_eq rfl
  · rw [readTileNum_eq]
    exact ⟨_, rfl, rfl, .inr rfl⟩
  · rcases readData0_cases (setAcc 0 s) with ⟨_, e⟩ | ⟨i, _, e⟩ <;> rw [e]
    · exact .of_history_eq rfl
    · exact ⟨_, rfl, rfl, .inl rfl⟩
  · rcases readData1_cases (setAcc 0 s) with ⟨_, e⟩ | ⟨i, _, ⟨_, e⟩ | ⟨_, e⟩⟩ <;> rw [e]
    · exact .of_history_eq rfl
    · exact ⟨_, rfl, rfl, .inl rfl⟩
    · exact ⟨_, rfl, rfl, .inl rfl⟩

/-- A fetch step drives no response and asks the pipeline nothing, however it ends. -/
theorem settle_fetcherStep_pipe (s : State) :
    let t := settle s (fetcherStep s)
    t.responses = s.responses ∧ t.collab.pipe = s.collab.pipe ∧ t.collab.pipeIdle = s.collab.pipeIdle := by
  have h := fetcherStep_frame s
  cases e : fetcherStep s <;> rw [e] at h <;> exact ⟨h.same.responses, h.pipe, h.idle⟩

theorem ControllerKept.same {s t : State} (h : ControllerKept s t) (hr : t.responses = s.responses) :
    SameController s t :=
  ⟨h.mode, h.cyc, congrArg _ h.cur, congrArg _ h.cur, h.mem, hr, h.port, h.cfg⟩

/-- Settles O39: the fetch step's frame and its record, both kept by settling. -/
theorem fprocFrame : Obligations.FprocFrame := by
  intro s t h
  obtain ⟨_, rfl⟩ := exec_next h
  have hkept := settle_fetcherStep_kept s
  obtain ⟨hresp, hpipe, hidle⟩ := settle_fetcherStep_pipe s
  exact ⟨hkept.same hresp, hkept.cur, hpipe, hidle,
    settle_of_all (P := FetchRecord s) (fetcherStep_record s) (fun _ => id) fun _ _ => id⟩

/-! ## The history only grows -/

theorem handOff_history (s : State) : (handOff s).All fun t => s.history <+: t.history := by
  rcases handOff_cases s with ⟨_, e⟩ | ⟨_, _, e⟩ | ⟨_, _, _, e⟩ | ⟨_, _, p, _, e⟩ <;> rw [e]
  · exact List.prefix_rfl
  · exact List.prefix_append _ _
  · exact List.prefix_append _ _
  · exact (List.prefix_append _ _).trans (List.prefix_append _ _)

theorem innerLoop_history (n fuel : Nat) (rem : Int) (s : State) :
    (innerLoop n fuel rem s).All fun t => s.history <+: t.history :=
  innerLoop_all (P := fun t => s.history <+: t.history) (fun _ h => h.trans (List.prefix_append _ _))
    (fun t h => (fetcherStep_record t).imp fun _ k => h.trans k.history_grows)
    (fun t h => (handOff_history t).imp fun _ k => h.trans k) n fuel rem s List.prefix_rfl

/-- Settles O50: settling restores the block's record, and the loop leaves memory, responses, port and parameters. -/
theorem refusedTickKeepsTheEventsOfItsTurns : Obligations.RefusedTickKeepsTheEventsOfItsTurns := by
  intro s u n r hs hm hl
  change innerLoop n n n (s.setCyc (s.cyc + n)) = .refuse r u at hl
  have hsame := innerLoop_same n n n (s.setCyc (s.cyc + n))
  have hhist := innerLoop_history n n n (s.setCyc (s.cyc + n))
  rw [hl, Flow.all_refuse] at hsame hhist
  have hbody : commandBody (.tick n) s = .refuse r u := by
    simp only [commandBody, modeArm, State.setCyc_mode, hm, ptArm, hl, Flow.andThen_refuse]
  refine ⟨?_, hhist⟩
  rw [exec_of_running hs, hbody, settle_refuse]
  simp [restoreRecord, State.setRefused, hsame.mem, hsame.responses, hsame.port, hsame.cfg]

theorem raiseLatched_history (test set : Byte) (b : Fin 8) (s : State) :
    s.history <+: (raiseLatched test set b s).history := by
  rw [raiseLatched_eq]
  split <;> simp [memRmwSet_eq]

/-- What no arm of a TICK writes, its inner loop left out: the responses, the port, the parameters, the feeds and the
marks; and of the history nothing recorded before. -/
structure ArmFrame (s t : State) : Prop where
  history   : s.history <+: t.history
  responses : t.responses = s.responses
  port      : t.port = s.port
  cfg       : t.cfg = s.cfg
  collab    : t.collab = s.collab
  fault     : t.fault = s.fault
  refused   : t.refused = s.refused

/-- The controller's arm keeps the state, or makes its mode's exit. -/
theorem controllerArm_cases (s : State) :
    controllerArm s = s ∨
    (s.mode = .oamSearch ∧ oamBudget ≤ s.cyc ∧ controllerArm s = oamArm s) ∨
    (s.mode = .pixelTransfer ∧ ptBudget ≤ s.cyc ∧ controllerArm s = ptExit s) ∨
    (s.mode = .hblank ∧ hblankBudget ≤ s.cyc ∧ controllerArm s = hblankArm s) ∨
    (s.mode = .vblank ∧ vblankLineBudget ≤ s.cyc ∧ controllerArm s = vblankArm s) := by
  rcases Nat.lt_or_ge s.cyc (modeBudget s.mode) with hc | hc
  · exact .inl (controllerArm_of_lt hc)
  · right
    cases hm : s.mode <;> rw [hm] at hc <;> simp only [controllerArm, hm]
    · exact .inr (.inr (.inl ⟨trivial, hc, trivial⟩))
    · exact .inr (.inr (.inr ⟨trivial, hc, trivial⟩))
    · exact .inl ⟨trivial, hc, trivial⟩
    · exact .inr (.inl ⟨trivial, hc, trivial⟩)

theorem controllerArm_frame (s : State) : ArmFrame s (controllerArm s) := by
  rcases controllerArm_cases s with e | ⟨_, hc, e⟩ | ⟨_, hc, e⟩ | ⟨_, hc, e⟩ | ⟨_, hc, e⟩ <;> rw [e]
  · exact ⟨List.prefix_rfl, rfl, rfl, rfl, rfl, rfl, rfl⟩
  · rw [oamArm_exit hc]
    exact ⟨List.prefix_append _ _, rfl, rfl, rfl, rfl, rfl, rfl⟩
  · rw [ptExit_exit hc]
    exact ⟨List.prefix_append _ _, rfl, rfl, rfl, rfl, rfl, rfl⟩
  · rw [hblankArm_exit hc]
    exact ⟨(raiseLatched_history _ _ _ s).trans (List.prefix_append _ _), rfl, rfl, rfl, rfl, rfl, rfl⟩
  · rw [vblankArm_exit hc]
    exact ⟨(raiseLatched_history _ _ _ s).trans (List.prefix_append _ _), rfl, rfl, rfl, rfl, rfl, rfl⟩

/-- Outside PIXEL_TRANSFER a TICK accumulates its operand and runs its mode's arm, all of it. -/
theorem commandBody_tick_of_ne {n : Nat} {s : State} (h : s.mode ≠ .pixelTransfer) :
    commandBody (.tick n) s = .go (controllerArm (s.setCyc (s.cyc + n))) := by
  cases hm : s.mode with
  | pixelTransfer => exact absurd hm h
  | oamSearch | hblank | vblank => simp only [commandBody, modeArm, controllerArm, State.setCyc_mode, hm]

theorem commandBody_history (i : Instr) (s : State) : (commandBody i s).All fun t => s.history <+: t.history := by
  cases i with
  | tick n =>
    by_cases hm : s.mode = .pixelTransfer
    · simp only [commandBody, modeArm, State.setCyc_mode, hm, ptArm]
      refine (innerLoop_history n n n (s.setCyc (s.cyc + n))).andThen (fun _ => id) fun t ht => ?_
      rcases Nat.lt_or_ge t.cyc ptBudget with hc | hc
      · rw [ptExit_of_lt hc]
        exact ht
      · rw [ptExit_exit hc]
        exact ht.trans (List.prefix_append _ _)
    · rw [commandBody_tick_of_ne hm]
      exact (controllerArm_frame (s.setCyc (s.cyc + n))).history
  | fproc => exact (fetcherStep_record s).imp fun _ h => h.history_grows
  | freset | resolve => exact List.prefix_rfl
  | reset => exact List.prefix_append _ _

/-- A command only adds to the event history, however it ends (R84). -/
theorem exec_history {i : Instr} {s t : State} (h : exec i s = .next t) : s.history <+: t.history := by
  obtain ⟨_, rfl⟩ := exec_next h
  exact settle_of_all (P := fun t => s.history <+: t.history) (commandBody_history i s) (fun _ => id) fun _ _ => id

/-! ## Frames of a TICK -/

theorem tick_responses {n : Nat} {s t : State} (h : exec (.tick n) s = .next t) : t.responses = s.responses := by
  obtain ⟨_, rfl⟩ := exec_next h
  rcases settle_tick_same n s with k | k | k
  · exact k.responses.trans (controllerArm_frame (s.setCyc (s.cyc + n))).responses
  · exact k.responses
  · exact k.responses

/-- Of memory the controller writes IF, STAT and LY at most (R64). -/
theorem controllerArm_read_other {s : State} (hw : Memory.wf s.mem = true) {a : Nat} (hif : a ≠ s.cfg.addrIf)
    (hstat : a ≠ s.cfg.addrStat) (hly : a ≠ s.cfg.addrLy) :
    Memory.read (controllerArm s).mem a = Memory.read s.mem a := by
  rcases controllerArm_cases s with e | ⟨_, _, e⟩ | ⟨_, _, e⟩ | ⟨_, hc, e⟩ | ⟨_, hc, e⟩ <;> rw [e]
  · rw [oamArm_mem]
  · rw [ptExit_mem]
  · rw [hblankArm_exit hc]
    exact raise_then_ly_read _ _ _ hw _ hif hstat hly
  · rw [vblankArm_exit hc]
    exact raise_then_ly_read _ _ _ hw _ hif hstat hly

theorem tick_read_other {n : Nat} {s t : State} (h : exec (.tick n) s = .next t) (hw : Memory.wf s.mem = true) {a : Nat}
    (hif : a ≠ s.cfg.addrIf) (hstat : a ≠ s.cfg.addrStat) (hly : a ≠ s.cfg.addrLy) :
    Memory.read t.mem a = Memory.read s.mem a := by
  obtain ⟨_, rfl⟩ := exec_next h
  rcases settle_tick_same n s with k | k | k
  · rw [k.mem]
    exact controllerArm_read_other (s := s.setCyc (s.cyc + n)) hw hif hstat hly
  · rw [k.mem]
    rfl
  · rw [k.mem]

/-- The column is written at the HBLANK exit, and by nothing else of the controller (R117). -/
theorem controllerArm_col {s : State} (h : s.mode ≠ .hblank) : (controllerArm s).cur.col = s.cur.col := by
  rcases controllerArm_cases s with e | ⟨_, hc, e⟩ | ⟨_, hc, e⟩ | ⟨hm, _⟩ | ⟨_, hc, e⟩
  · rw [e]
  · rw [e, oamArm_exit hc]
  · rw [e, ptExit_exit hc]
  · exact absurd hm h
  · rw [e, vblankArm_exit hc]

/-- The row is written at the HBLANK and VBLANK exits alone (R26). -/
theorem controllerArm_row {s : State} (h : s.mode = .oamSearch ∨ s.mode = .pixelTransfer) :
    (controllerArm s).cur.row = s.cur.row := by
  rcases controllerArm_cases s with e | ⟨_, hc, e⟩ | ⟨_, hc, e⟩ | ⟨hm, _⟩ | ⟨hm, _⟩
  · rw [e]
  · rw [e, oamArm_exit hc]
  · rw [e, ptExit_exit hc]
  · simp [hm] at h
  · simp [hm] at h

theorem tick_row {n : Nat} {s t : State} (h : exec (.tick n) s = .next t)
    (hm : s.mode = .oamSearch ∨ s.mode = .pixelTransfer) : t.cur.row = s.cur.row := by
  obtain ⟨_, rfl⟩ := exec_next h
  rcases settle_tick_same n s with k | k | k
  · exact k.row.trans (controllerArm_row (s := s.setCyc (s.cyc + n)) hm)
  · exact k.row
  · exact k.row

/-- Outside PIXEL_TRANSFER a TICK ends where its mode's arm ends; no case stops it. -/
theorem tick_eq_controllerArm {n : Nat} {s t : State} (h : exec (.tick n) s = .next t) (hm : s.mode ≠ .pixelTransfer) :
    s.Running ∧ t = controllerArm (s.setCyc (s.cyc + n)) := by
  obtain ⟨hs, rfl⟩ := exec_next h
  exact ⟨hs, by rw [commandBody_tick_of_ne hm, settle_go]⟩

/-- Settles O33: each clause is a frame of the mode's arm, carried over the inner loop by `settle_tick_same`. -/
theorem tickFrame : Obligations.TickFrame := by
  intro n s t hw h
  obtain ⟨hport, hcfg⟩ := exec_port_cfg h
  refine ⟨tick_responses h, hport, hcfg, exec_history h, fun a => tick_read_other h hw, fun hm => ?_,
    fun hm hh => ?_, fun hm => ⟨exec_mem h fun _ _ _ => ?_, tick_row h hm, ?_⟩⟩
  · obtain ⟨hs, rfl⟩ := tick_eq_controllerArm h hm
    have k := controllerArm_frame (s.setCyc (s.cyc + n))
    exact ⟨controllerArm_fetcher (s := s.setCyc (s.cyc + n)) hm, k.collab, k.fault.trans hs.no_fault,
      k.refused.trans hs.no_refusal⟩
  · obtain ⟨_, rfl⟩ := tick_eq_controllerArm h hm
    exact controllerArm_col (s := s.setCyc (s.cyc + n)) hh
  · rcases hm with hm | hm <;> simp [hm]
  · rcases exec_frameReady h with e | ⟨_, _, _, hv, _⟩ | ⟨_, hr⟩
    · exact e
    · rcases hm with hm | hm <;> cases hm.symm.trans hv
    · cases hr

/-! ## Steps at the port add to the record -/

/-- RESOLVE drives one response word, and no other command drives any (R95). -/
theorem exec_responses {i : Instr} {s t : State} (h : exec i s = .next t) : s.responses <+: t.responses := by
  cases i with
  | tick n => exact (tick_responses h).symm ▸ List.prefix_rfl
  | fproc =>
    obtain ⟨_, rfl⟩ := exec_next h
    exact (settle_fetcherStep_pipe s).1.symm ▸ List.prefix_rfl
  | resolve =>
    obtain ⟨_, rfl⟩ := exec_next h
    exact List.prefix_append _ _
  | freset | reset =>
    obtain ⟨_, rfl⟩ := exec_next h
    exact List.prefix_rfl

/-- A move that is no command changes neither the record nor the port and the parameters. -/
theorem applyMove_frame (m : HostMove) (s : State) :
    (applyMove m s).history = s.history ∧ (applyMove m s).responses = s.responses ∧
      (applyMove m s).cfg = s.cfg ∧ (applyMove m s).port = s.port := by
  cases m <;> exact ⟨rfl, rfl, rfl, rfl⟩

/-- Settles O49: over the cases of a step, only a command adds to the record, and every move leaves the port. -/
theorem stepsOnlyAddToTheRecord : Obligations.StepsOnlyAddToTheRecord := by
  intro s t h
  rcases step_cases h with ⟨_, rfl⟩ | ⟨w, i, rest, hp, _, h⟩ | ⟨w, rest, hp, rfl⟩ | ⟨m, rest, hp, rfl⟩
  · exact ⟨List.prefix_rfl, List.prefix_rfl, rfl, .inl rfl⟩
  · obtain ⟨hport, hcfg⟩ := exec_port_cfg h
    exact ⟨exec_history (s := s.setPort rest) h, exec_responses (s := s.setPort rest) h, hcfg,
      .inr ⟨_, by simpa [hport]⟩⟩
  · exact ⟨List.prefix_rfl, List.prefix_rfl, rfl, .inr ⟨_, hp⟩⟩
  · obtain ⟨hh, hr, hcfg, hport⟩ := applyMove_frame m (s.setPort rest)
    exact ⟨by simp [hh], by simp [hr], hcfg, .inr ⟨m, by simpa [hport]⟩⟩

end Sys2Proof.Machine

/-! Encoding (spec/30_encoding.md). The decoder in plain arithmetic (`decode_eq`) gives one statement of what a command
word is: `decode_eq_ok_iff`, a word decodes to a command exactly when the command is well formed and encodes to it.
The round trips, the reserved words and the rows of the opcode table follow from it. -/

namespace Sys2Proof.Machine

/-! ## The decoder and the encoder -/

theorem cmdZ0_eq_zero_iff (w : Word) : cmdZ0 w = 0 ↔ w.toNat / 16 % 16 = 0 := by
  rw [← BitVec.toNat_inj, cmdZ0_toNat]; rfl

theorem cmdOpnd_eq_zero_iff (w : Word) : cmdOpnd w = 0 ↔ w.toNat / 256 = 0 := by
  rw [← BitVec.toNat_inj, cmdOpnd_toNat]; rfl

theorem cmdTop_eq_zero_iff (w : Word) : cmdTop w = 0 ↔ w.toNat / 256 / 2 ^ 16 = 0 := by
  rw [← BitVec.toNat_inj, cmdTop_toNat, Nat.div_div_eq_div_mul]; rfl

theorem cmdReq_eq (w : Word) : cmdReq w = BitVec.ofNat 8 (w.toNat / 256) :=
  BitVec.eq_of_toNat_eq (by rw [cmdReq_toNat, BitVec.toNat_ofNat])

theorem cmdEn_eq (w : Word) : cmdEn w = BitVec.ofNat 8 (w.toNat / 256 / 2 ^ 8) :=
  BitVec.eq_of_toNat_eq (by rw [cmdEn_toNat, BitVec.toNat_ofNat, Nat.div_div_eq_div_mul]; rfl)

/-- The decoder as arithmetic on the word's number: `op = cmd[3:0]`, `z0 = cmd[7:4]`, `opnd = cmd[31:8]` (R86, R91). -/
theorem decode_eq (w : Word) :
    decode w =
      if w.toNat / 16 % 16 ≠ 0 then .error .reservedEncoding
      else if w.toNat % 16 = 1 then .ok (.tick (w.toNat / 256))
      else if w.toNat % 16 = 2 ∧ w.toNat / 256 = 0 then .ok .fproc
      else if w.toNat % 16 = 3 ∧ w.toNat / 256 = 0 then .ok .freset
      else if w.toNat % 16 = 4 ∧ w.toNat / 256 / 2 ^ 16 = 0 then
        .ok (.resolve (BitVec.ofNat 8 (w.toNat / 256)) (BitVec.ofNat 8 (w.toNat / 256 / 2 ^ 8)))
      else if w.toNat % 16 = 5 ∧ w.toNat / 256 = 0 then .ok .reset
      else .error .reservedEncoding := by
  simp only [decode, decodeFormatN, ne_eq, cmdZ0_eq_zero_iff, cmdOpnd_eq_zero_iff, cmdTop_eq_zero_iff, cmdOp_toNat,
    cmdOpnd_toNat, cmdReq_eq, cmdEn_eq]
  split
  · rfl
  -- one case for each opcode, and one for the opcodes that are no command's
  · split <;> simp_all

/-- A word decodes to a command exactly when it is the encoded word of that command, its operands in range
(R86-R91, R101). -/
theorem decode_eq_ok_iff {w : Word} {i : Instr} : decode w = .ok i ↔ i.WellFormed ∧ encode i = w := by
  constructor
  · intro h
    have hw := w.isLt
    rw [decode_eq] at h
    split_ifs at h with hz htick hfproc hfreset hresolve hreset <;> cases h
    · have hn : w.toNat / 256 < 2 ^ 24 := by omega
      exact ⟨hn, BitVec.eq_of_toNat_eq (by rw [encode_tick_toNat hn]; omega)⟩
    · exact ⟨trivial, BitVec.eq_of_toNat_eq (by change 2 = _; omega)⟩
    · exact ⟨trivial, BitVec.eq_of_toNat_eq (by change 3 = _; omega)⟩
    · refine ⟨trivial, BitVec.eq_of_toNat_eq ?_⟩
      rw [encode_resolve_toNat, BitVec.toNat_ofNat, BitVec.toNat_ofNat]
      omega
    · exact ⟨trivial, BitVec.eq_of_toNat_eq (by change 5 = _; omega)⟩
  · rintro ⟨h, rfl⟩
    rw [decode_eq]
    cases i with
    | tick n =>
      have hn : (n * 256 + 1) / 256 = n := by omega
      rw [encode_tick_toNat h, if_neg (by omega), if_pos (by omega), hn]
    | fproc | freset | reset => rfl
    | resolve req en =>
      have hreq := req.isLt
      have hen := en.isLt
      have er : BitVec.ofNat 8 ((en.toNat * 65536 + req.toNat * 256 + 4) / 256) = req :=
        BitVec.eq_of_toNat_eq (by rw [BitVec.toNat_ofNat]; omega)
      have ee : BitVec.ofNat 8 ((en.toNat * 65536 + req.toNat * 256 + 4) / 256 / 2 ^ 8) = en :=
        BitVec.eq_of_toNat_eq (by rw [BitVec.toNat_ofNat]; omega)
      rw [encode_resolve_toNat, if_neg (by omega), if_neg (by omega), if_neg (by omega), if_neg (by omega),
        if_pos (by omega), er, ee]

/-- The table's decoder reads from a word's number what the decoder reads from the word (R85). -/
theorem decodeTableWord_toNat (w : Word) : decodeTableWord 32 w.toNat = (decode w).toOption := by
  rw [decodeTableWord, tableWord, Nat.mod_eq_of_lt w.isLt, if_pos w.isLt, BitVec.ofNat_toNat, BitVec.setWidth_eq]

/-- Settles O1: a well-formed command's word decodes to it, and the word is its own table word. -/
theorem decodeOfEncodeGivesTheCommandBack : Obligations.DecodeOfEncodeGivesTheCommandBack := by
  intro i h
  have hd : decode (encode i) = .ok i := decode_eq_ok_iff.2 ⟨h, rfl⟩
  exact ⟨hd, by rw [decodeTableWord_toNat, hd]; rfl⟩

/-- Settles O2: the other direction of the same equivalence. -/
theorem decodedCommandEncodesToItsWord : Obligations.DecodedCommandEncodesToItsWord :=
  fun _ _ => decode_eq_ok_iff.1

/-! ## The rows of the opcode table -/

/-- A word that matches a row has the row's pattern in every field the row's mask covers. -/
theorem extractLsb'_eq_of_rowMatches {r : OpcodeRow} {w : Word} (h : rowMatches r w = true) {k n : Nat}
    (hmask : r.mask.extractLsb' k n = BitVec.allOnes n) : w.extractLsb' k n = r.pattern.extractLsb' k n := by
  rw [← beq_iff_eq.1 h, BitVec.extractLsb'_and, hmask, BitVec.and_allOnes]

/-- A command's word matches the command's own row. -/
theorem rowMatches_encode {i : Instr} (h : i.WellFormed) : rowMatches (opcodeRow i) (encode i) = true := by
  cases i with
  | tick n => exact Laws.RowMatch.tick n h
  | fproc => exact Laws.RowMatch.fproc h
  | freset => exact Laws.RowMatch.freset h
  | resolve req en => exact Laws.RowMatch.resolve req en h
  | reset => exact Laws.RowMatch.reset h

theorem eq_of_rowMatches_allOnes {p w : Word} (h : rowMatches ⟨BitVec.allOnes 32, p⟩ w = true) : w = p :=
  BitVec.and_allOnes.symm.trans (beq_iff_eq.1 h)

/-- A word matches a row exactly when it decodes to a command of that row (R88-R91). -/
theorem rowMatches_iff (i : Instr) (w : Word) :
    rowMatches (opcodeRow i) w = true ↔ ∃ j, decode w = .ok j ∧ opcodeRow j = opcodeRow i := by
  constructor
  · intro h
    cases i with
    | tick n =>
      change rowMatches ⟨0x000000FF, 0x00000001⟩ w = true at h
      have hop : cmdOp w = 1 := extractLsb'_eq_of_rowMatches h (by decide)
      have hz : cmdZ0 w = 0 := extractLsb'_eq_of_rowMatches h (by decide)
      exact ⟨.tick (cmdOpnd w).toNat, by simp [decode, hop, hz], rfl⟩
    | fproc => exact ⟨.fproc, by rw [eq_of_rowMatches_allOnes h]; rfl, rfl⟩
    | freset => exact ⟨.freset, by rw [eq_of_rowMatches_allOnes h]; rfl, rfl⟩
    | resolve req en =>
      change rowMatches ⟨0xFF0000FF, 0x00000004⟩ w = true at h
      have hop : cmdOp w = 4 := extractLsb'_eq_of_rowMatches h (by decide)
      have hz : cmdZ0 w = 0 := extractLsb'_eq_of_rowMatches h (by decide)
      have htop : cmdTop w = 0 := extractLsb'_eq_of_rowMatches h (by decide)
      exact ⟨.resolve (cmdReq w) (cmdEn w), by simp [decode, hop, hz, htop], rfl⟩
    | reset => exact ⟨.reset, by rw [eq_of_rowMatches_allOnes h]; rfl, rfl⟩
  · rintro ⟨j, hd, hrow⟩
    obtain ⟨hj, rfl⟩ := decode_eq_ok_iff.1 hd
    exact hrow ▸ rowMatches_encode hj

theorem exists_opcodeRow_of_mem {r : OpcodeRow} (h : r ∈ opcodeTable) : ∃ i, opcodeRow i = r := by
  simp only [opcodeTable, List.mem_cons, List.not_mem_nil, or_false] at h
  rcases h with rfl | rfl | rfl | rfl | rfl <;> exact ⟨_, rfl⟩

/-- A command word matches its command's row and no other. -/
theorem filter_rowMatches_of_decode_ok {w : Word} {i : Instr} (h : decode w = .ok i) :
    opcodeTable.filter (fun r => rowMatches r w) = opcodeTable.filter (fun r => r = opcodeRow i) := by
  refine List.filter_congr fun r hr => ?_
  obtain ⟨j, rfl⟩ := exists_opcodeRow_of_mem hr
  rw [Bool.eq_iff_iff, rowMatches_iff, decide_eq_true_iff]
  simp [h, eq_comm]

/-- The rows of the table are distinct. -/
theorem filter_opcodeRow_length (i : Instr) : (opcodeTable.filter fun r => r = opcodeRow i).length = 1 := by
  cases i <;> rfl

/-- Settles O3: the decoder's arithmetic, and the commands of the rows a word matches. -/
theorem decodeFollowsTheRuleOnEveryWord : Obligations.DecodeFollowsTheRuleOnEveryWord := by
  intro w
  refine ⟨decode_eq w, ?_, fun he r hr => ?_⟩
  · rintro ⟨i, hi⟩
    rw [filter_rowMatches_of_decode_ok hi, filter_opcodeRow_length]
  · obtain ⟨i, rfl⟩ := exists_opcodeRow_of_mem hr
    rw [Bool.eq_false_iff, ne_eq, rowMatches_iff]
    simp [he]

/-! ## A word at the port -/

/-- A running block takes the word at the port (R85). -/
theorem step_command {s : State} {w : Word} {rest : List HostMove} (hs : s.Running)
    (hp : s.port = .command w :: rest) : step s = stepWord w (s.setPort rest) := by
  rw [step_of_running hs]
  simp only [stepPort, hp]

theorem stepWord_ok {w : Word} {i : Instr} (h : decode w = .ok i) (s : State) : stepWord w s = exec i s := by
  simp only [stepWord, h]

theorem stepWord_error {w : Word} {r : RefuseReason} (h : decode w = .error r) (s : State) :
    stepWord w s = .next s.setRefused := by
  simp only [stepWord, h, refuseInput]

/-- The classes of R92: opcode 0 or 6 to 15; bits 7:4 not zero; a format-N word with an operand; a RESOLVE word with
bits 31:24 not zero. -/
def ReservedWord (w : Word) : Prop :=
  w.toNat % 16 = 0 ∨ 6 ≤ w.toNat % 16 ∨ w.toNat / 16 % 16 ≠ 0 ∨
    ((w.toNat % 16 = 2 ∨ w.toNat % 16 = 3 ∨ w.toNat % 16 = 5) ∧ w.toNat / 256 ≠ 0) ∨
    (w.toNat % 16 = 4 ∧ w.toNat / 2 ^ 24 ≠ 0)

theorem not_reservedWord_encode {i : Instr} (h : i.WellFormed) : ¬ ReservedWord (encode i) := by
  unfold ReservedWord
  cases i with
  | tick n =>
    rw [encode_tick_toNat h]
    omega
  | fproc | freset | reset => decide
  | resolve req en =>
    have hreq := req.isLt
    have hen := en.isLt
    rw [encode_resolve_toNat]
    omega

/-- Settles O4: a word that decodes is a command's word, so a reserved one does not decode, and the mark is set. -/
theorem reservedWordSetsTheRefusedMarkAlone : Obligations.ReservedWordSetsTheRefusedMarkAlone := by
  intro s w rest hs hp hw
  rw [step_command hs hp]
  cases hd : decode w with
  | error r => exact stepWord_error hd _
  | ok i =>
    obtain ⟨hi, rfl⟩ := decode_eq_ok_iff.1 hd
    exact absurd hw (not_reservedWord_encode hi)

/-- Settles O9: the word is taken from the port and its command runs. -/
theorem stepRunsTheDecodedCommand : Obligations.StepRunsTheDecodedCommand := by
  intro s w rest i hs hp hd
  exact (step_command hs hp).trans (stepWord_ok hd _)

/-! ## The response word -/

/-- No command but RESOLVE drives a response word (R95). -/
theorem exec_responses_eq {i : Instr} {s t : State} (h : exec i s = .next t) (hi : ∀ req en, i ≠ .resolve req en) :
    t.responses = s.responses := by
  cases i with
  | tick n => exact tick_responses h
  | resolve req en => exact absurd rfl (hi req en)
  | fproc =>
    obtain ⟨_, rfl⟩ := exec_next h
    exact (settle_fetcherStep_pipe s).1
  | freset | reset =>
    obtain ⟨_, rfl⟩ := exec_next h
    rfl

/-- Settles O42: the fields of the response word's number, and the frame of each command. -/
theorem responseWordLayout : Obligations.ResponseWordLayout := by
  refine ⟨fun t k => ?_, fun _ => rfl, fun s req en hs => ⟨_, exec_of_running hs _, rfl⟩,
    fun i s t h hi => exec_responses_eq h hi⟩
  have hkind := (kindCode k).isLt
  have hbit := (irqDescriptor t k).bit.isLt
  rw [responseWord_toNat]
  omega

/-! ## Words written out, and the encodings of the state -/

/-- A number shifted past the bits of another, while none of it leaves the word. -/
theorem shiftLeft_or_toNat {x y : Word} {k : Nat} (hx : x.toNat * 2 ^ k < 2 ^ 32) (hy : y.toNat < 2 ^ k) :
    (x <<< k ||| y).toNat = x.toNat * 2 ^ k + y.toNat := by
  rw [BitVec.toNat_or, BitVec.toNat_shiftLeft, Nat.shiftLeft_eq, Nat.mod_eq_of_lt hx, ← Nat.shiftLeft_eq,
    Nat.shiftLeft_add_eq_or_of_lt hy]

/-- Settles O5: the shifts of R101 put the operands where the fields of the word are. -/
theorem commandsAssembleToTheirWords : Obligations.CommandsAssembleToTheirWords := by
  refine ⟨fun n hn => BitVec.eq_of_toNat_eq ?_, rfl, rfl, fun a b => BitVec.eq_of_toNat_eq ?_, rfl, rfl, rfl, rfl⟩
  · have hword : (BitVec.ofNat 32 n).toNat = n := Nat.mod_eq_of_lt (by omega)
    rw [encode_tick_toNat hn, shiftLeft_or_toNat (by omega) (by decide), hword]
    rfl
  · have ha : (a.setWidth 32).toNat = a.toNat := BitVec.toNat_setWidth_of_le (by decide)
    have hb : (b.setWidth 32).toNat = b.toNat := BitVec.toNat_setWidth_of_le (by decide)
    have hlow : (a.setWidth 32 <<< 8 ||| 0x04 : Word).toNat = a.toNat * 2 ^ 8 + 4 := by
      rw [shiftLeft_or_toNat (by omega) (by decide), ha]
      rfl
    rw [encode_resolve_toNat, BitVec.or_assoc, shiftLeft_or_toNat (by omega) (by omega), hlow, hb]
    omega

/-- Settles O6: nine words of the spec's test vectors, decoded. -/
theorem sampleWordsDecodeToTheirCommands : Obligations.SampleWordsDecodeToTheirCommands :=
  ⟨rfl, rfl, rfl, rfl, rfl, rfl, rfl, rfl, rfl⟩

/-- Settles O7: a case for each mode, Fetcher state and kind, and for each 2-bit value. -/
theorem stateEncodingsUseEveryValueOnce : Obligations.StateEncodingsUseEveryValueOnce := by
  refine ⟨by decide, by decide, by decide, fun m => ?_, by decide, fun x => ?_, by decide, fun k => ?_⟩
  · cases m <;> rfl
  · cases x <;> rfl
  · cases k <;> decide

/-! ## The assembler's operands -/

theorem readOperand_of_readNumber {text : List Char} {v : Nat} (h : readNumber text = some v) (bound : Nat) :
    readOperand bound text = if v < bound then some v else none := by
  simp only [readOperand, h]

/-- Settles O8: each operand is read under its own bound, and a line takes them all or is refused. -/
theorem assemblerRefusesOutOfRangeOperands : Obligations.AssemblerRefusesOutOfRangeOperands := by
  refine ⟨fun text v h => ?_, fun ta tb a b ha hb => ?_⟩
  · rw [readCommand, readOperand_of_readNumber h]
    split <;> rfl
  · rw [readCommand, readOperand_of_readNumber ha, readOperand_of_readNumber hb]
    by_cases ha : a < 2 ^ 8
    · by_cases hb : b < 2 ^ 8 <;> simp only [ha, hb, true_and, if_true, if_false]
    · simp only [ha, false_and, if_false]

end Sys2Proof.Machine

/-! The Mode Controller (spec/41_mode_controller.md). Outside PIXEL_TRANSFER a TICK is its mode's arm; there it is the
inner loop and then the exit test. What the latched raise leaves is said once, for both exits that make it. The
granularity law compares every sequence of small TICKs with single cycles. -/

namespace Sys2Proof.Machine

/-! ## A TICK as its arm -/

theorem Flow.All.of_eq_go {P : State → Prop} {x : Flow} {s : State} (h : x.All P) (e : x = .go s) : P s := by
  subst e
  exact h

theorem exec_tick_of_ne {n : Nat} {s : State} (hs : s.Running) (hm : s.mode ≠ .pixelTransfer) :
    exec (.tick n) s = .next (controllerArm (s.setCyc (s.cyc + n))) := by
  rw [exec_of_running hs, commandBody_tick_of_ne hm, settle_go]

theorem commandBody_tick_pixelTransfer (n : Nat) {s : State} (hm : s.mode = .pixelTransfer) :
    commandBody (.tick n) s = (innerLoop n n n (s.setCyc (s.cyc + n))).andThen fun t => .go (ptExit t) := by
  simp only [commandBody, modeArm, State.setCyc_mode, hm, ptArm]

/-- Settles O19: the OAM_SEARCH arm, with the sprite height's bit and its two values written out. -/
theorem tickInOamSearch : Obligations.TickInOamSearch := by
  intro s n hs hm
  have e := exec_tick_of_ne (n := n) hs (by simp [hm])
  simp only [controllerArm, State.setCyc_mode, hm] at e
  refine ⟨fun hlt => ?_, fun hge => ?_⟩ <;> rw [e]
  · rw [oamArm_of_lt hlt]
    rfl
  · rw [oamArm_exit (s := s.setCyc (s.cyc + n)) hge]
    rfl

/-! ## What the latched raise leaves (R118) -/

/-- The events of a latched raise: STAT is read, and when no tested bit is set there, IF and STAT are each read and
written (notes/assumptions/17.md). -/
def raiseEvents (test set : Byte) (b : Fin 8) (s : State) : List Event :=
  let stat := readReg s .stat
  let iflag := readReg s .iflag
  if stat &&& test ≠ 0 then [.memRead s.cfg.addrStat stat]
  else [.memRead s.cfg.addrStat stat, .memRead s.cfg.addrIf iflag, .memWrite s.cfg.addrIf (iflag ||| bitMask b),
    .memRead s.cfg.addrStat stat, .memWrite s.cfg.addrStat (stat ||| set)]

/-- The latch's test, on STAT's byte (R118). -/
theorem testMask_stat_iff {s : State} {test : Byte} :
    testMask (Memory.read s.mem s.cfg.addrStat) test = true ↔ readReg s .stat &&& test ≠ 0 := decide_eq_true_iff

section LatchedRaise

variable {s : State} (hc : s.cfg.Wf) (hw : Memory.wf s.mem = true) (test set : Byte) (b : Fin 8)

include hc hw

/-- The latched raise finds in STAT, when it sets the latch, the byte it tested: the IF write leaves STAT (D9). -/
theorem raiseLatched_history_eq : (raiseLatched test set b s).history = s.history ++ raiseEvents test set b s := by
  have hne : s.cfg.addrStat ≠ s.cfg.addrIf := (written_addrs_distinct hc).1.symm
  rw [raiseLatched_eq, raiseEvents]
  by_cases hl : readReg s .stat &&& test ≠ 0
  · rw [if_pos (testMask_stat_iff.2 hl), if_pos hl]
    rfl
  · rw [if_neg (mt testMask_stat_iff.1 hl), if_neg hl]
    simp [memRmwSet_eq, Memory.read_write_other hw hne, readReg, regAddr]

/-- Every byte after a latched raise. -/
theorem read_raiseLatched (a : Nat) :
    Memory.read (raiseLatched test set b s).mem a =
      if a = s.cfg.addrIf then
        if readReg s .stat &&& test ≠ 0 then readReg s .iflag else readReg s .iflag ||| bitMask b
      else if a = s.cfg.addrStat then
        if readReg s .stat &&& test ≠ 0 then readReg s .stat else readReg s .stat ||| set
      else Memory.read s.mem a := by
  have hne : s.cfg.addrStat ≠ s.cfg.addrIf := (written_addrs_distinct hc).1.symm
  rw [raiseLatched_mem]
  by_cases hl : readReg s .stat &&& test ≠ 0
  · rw [if_pos (testMask_stat_iff.2 hl), if_pos hl, if_pos hl]
    split_ifs with hif hstat
    · rw [hif]; rfl
    · rw [hstat]; rfl
    · rfl
  · rw [if_neg (mt testMask_stat_iff.1 hl), if_neg hl, if_neg hl]
    simp only [Memory.read_write (Memory.wf_write hw _ _), Memory.read_write hw, if_neg hne]
    split_ifs with hstat hif
    · exact absurd (hstat.symm.trans hif) hne
    all_goals rfl

/-- Every byte after an exit that makes the latched raise and then writes LY. -/
theorem read_raise_then_ly (v : Byte) (a : Nat) :
    Memory.read (Memory.write (raiseLatched test set b s).mem s.cfg.addrLy v) a =
      if a = s.cfg.addrLy then v
      else if a = s.cfg.addrIf then
        if readReg s .stat &&& test ≠ 0 then readReg s .iflag else readReg s .iflag ||| bitMask b
      else if a = s.cfg.addrStat then
        if readReg s .stat &&& test ≠ 0 then readReg s .stat else readReg s .stat ||| set
      else Memory.read s.mem a := by
  rw [Memory.read_write (raiseLatched_wf hw test set b), read_raiseLatched hc hw]

end LatchedRaise

/-- Settles O20: the HBLANK arm's exit, with the latched raise's events and bytes. -/
theorem tickInHblank : Obligations.TickInHblank := by
  intro s n hs hc hw hm
  have e := exec_tick_of_ne (n := n) hs (by simp [hm])
  simp only [controllerArm, State.setCyc_mode, hm] at e
  refine ⟨fun hlt => ?_, fun hge => ⟨_, ?_, read_raise_then_ly (s := s.setCyc (s.cyc + n)) hc hw s.cfg.statM0Test
    s.cfg.statM0Set s.cfg.irq.lcdcStat.bit (lyByte s)⟩⟩ <;> rw [e]
  · rw [hblankArm_of_lt hlt]
    rfl
  · simp only [hblankArm_exit (s := s.setCyc (s.cyc + n)) hge,
      raiseLatched_history_eq (s := s.setCyc (s.cyc + n)) hc hw]
    rfl

/-- Settles O21: the VBLANK arm's exit, line end or frame wrap, with the latched raise's events and bytes. -/
theorem tickInVblank : Obligations.TickInVblank := by
  intro s n hs hc hw hm
  have e := exec_tick_of_ne (n := n) hs (by simp [hm])
  simp only [controllerArm, State.setCyc_mode, hm] at e
  refine ⟨fun hlt => ?_, fun hge => ⟨_, ?_, read_raise_then_ly (s := s.setCyc (s.cyc + n)) hc hw s.cfg.statM1Test
    s.cfg.statM1Set s.cfg.irq.vblank.bit (lyByte s)⟩⟩ <;> rw [e]
  · rw [vblankArm_of_lt hlt]
    rfl
  · simp only [vblankArm_exit (s := s.setCyc (s.cyc + n)) hge,
      raiseLatched_history_eq (s := s.setCyc (s.cyc + n)) hc hw, State.setCyc_mode, hm]
    rfl

/-- What an exit's latched raise leaves in IF and STAT. -/
structure RaiseOutcome (test set : Byte) (b : Fin 8) (s t : State) : Prop where
  iflag : readReg t .iflag =
    if readReg s .stat &&& test ≠ 0 then readReg s .iflag else readReg s .iflag ||| bitMask b
  stat  : readReg t .stat = if readReg s .stat &&& test ≠ 0 then readReg s .stat else readReg s .stat ||| set

/-- The LY write that follows the raise leaves IF and STAT (D9). -/
theorem raiseOutcome_of_mem {test set : Byte} {b : Fin 8} {v : Byte} {c : Nat} {s t : State} (hc : s.cfg.Wf)
    (hw : Memory.wf s.mem = true) (hcfg : t.cfg = s.cfg)
    (hmem : t.mem = Memory.write (raiseLatched test set b (s.setCyc c)).mem s.cfg.addrLy v) :
    RaiseOutcome test set b s t := by
  obtain ⟨hif, hifly, hstatly, _⟩ := written_addrs_distinct hc
  have hread := read_raise_then_ly (s := s.setCyc c) hc hw test set b v
  rw [State.setCyc_cfg, ← hmem] at hread
  constructor
  · rw [readReg, hcfg, regAddr, hread, if_neg hifly, if_pos rfl]
    rfl
  · rw [readReg, hcfg, regAddr, hread, if_neg hstatly, if_neg hif.symm, if_pos rfl]
    rfl

section DueExit

variable {n : Nat} {s t : State} (hc : s.cfg.Wf) (hw : Memory.wf s.mem = true) (h : exec (.tick n) s = .next t)
  (hd : ExitDue n s)

include hc hw h hd

theorem hblank_exit_raiseOutcome (hm : s.mode = .hblank) :
    RaiseOutcome s.cfg.statM0Test s.cfg.statM0Set s.cfg.irq.lcdcStat.bit s t := by
  obtain ⟨_, rfl⟩ := tick_eq_controllerArm h (by simp [hm])
  rw [ExitDue, hm] at hd
  simp only [controllerArm, State.setCyc_mode, hm]
  rw [hblankArm_exit (s := s.setCyc (s.cyc + n)) hd]
  exact raiseOutcome_of_mem hc hw rfl rfl

theorem vblank_exit_raiseOutcome (hm : s.mode = .vblank) :
    RaiseOutcome s.cfg.statM1Test s.cfg.statM1Set s.cfg.irq.vblank.bit s t := by
  obtain ⟨_, rfl⟩ := tick_eq_controllerArm h (by simp [hm])
  rw [ExitDue, hm] at hd
  simp only [controllerArm, State.setCyc_mode, hm]
  rw [vblankArm_exit (s := s.setCyc (s.cyc + n)) hd]
  exact raiseOutcome_of_mem hc hw rfl rfl

end DueExit

section Outcome

variable {test set : Byte} {b : Fin 8} {s t : State} (h : RaiseOutcome test set b s t)

include h

theorem RaiseOutcome.of_latched (hl : readReg s .stat &&& test ≠ 0) :
    readReg t .iflag = readReg s .iflag ∧ readReg t .stat = readReg s .stat :=
  ⟨h.iflag.trans (if_pos hl), h.stat.trans (if_pos hl)⟩

/-- With no tested bit set, the request bit is set, and the latch by those set bits that are tested. -/
theorem RaiseOutcome.of_clear (hl : readReg s .stat &&& test = 0) :
    (readReg t .iflag).getLsbD b.val = true ∧ (readReg t .stat &&& test ≠ 0 ↔ set &&& test ≠ 0) := by
  have hif : readReg t .iflag = readReg s .iflag ||| bitMask b := h.iflag.trans (if_neg (not_not.2 hl))
  have hstat : readReg t .stat = readReg s .stat ||| set := h.stat.trans (if_neg (not_not.2 hl))
  constructor
  · simp [hif, bitMask]
  · simp [hstat, BitVec.and_or_distrib_right, hl]

theorem RaiseOutcome.iflag_or :
    readReg t .iflag = readReg s .iflag ∨ readReg t .iflag = readReg s .iflag ||| bitMask b := by
  rw [h.iflag]
  exact ite_eq_or_eq _ _ _

end Outcome

/-- Settles O32: one outcome of the latched raise for both exits. -/
theorem latchSuppressesTheSecondRequest : Obligations.LatchSuppressesTheSecondRequest := by
  intro n s t hc hw h hd
  refine ⟨fun hm => ?_, fun hm => ?_⟩
  · have k := hblank_exit_raiseOutcome hc hw h hd hm
    exact ⟨k.of_latched, k.of_clear⟩
  · have k := vblank_exit_raiseOutcome hc hw h hd hm
    exact ⟨k.of_latched, k.of_clear⟩

/-- Settles O44: away from the two exits memory is unchanged, and each of them makes its own latched raise. -/
theorem requestsAreRaisedOnlyAtTwoExits : Obligations.RequestsAreRaisedOnlyAtTwoExits := by
  intro i s t hc hw h
  by_cases hx : ∃ n, i = .tick n ∧ ExitDue n s ∧ (s.mode = .hblank ∨ s.mode = .vblank)
  · obtain ⟨n, rfl, hd, hm | hm⟩ := hx
    · exact (hblank_exit_raiseOutcome hc hw h hd hm).iflag_or.imp_right fun e => ⟨n, rfl, hd, .inl ⟨hm, e⟩⟩
    · exact (vblank_exit_raiseOutcome hc hw h hd hm).iflag_or.imp_right fun e => ⟨n, rfl, hd, .inr ⟨hm, e⟩⟩
  · left
    have hmem : t.mem = s.mem := exec_mem h fun n hn hd =>
      ⟨fun hm => hx ⟨n, hn, hd, .inl hm⟩, fun hm => hx ⟨n, hn, hd, .inr hm⟩⟩
    rw [readReg, readReg, hmem, (exec_port_cfg h).2]

/-! ## One edge of the transition graph (R124, R125) -/

/-- A due exit takes an edge of the transition graph and subtracts the budget once. -/
theorem controllerArm_edge {s : State} (h : modeBudget s.mode ≤ s.cyc) :
    modeEdge s.mode (controllerArm s).mode = true ∧ (controllerArm s).cyc = s.cyc - modeBudget s.mode := by
  cases hm : s.mode <;> rw [hm] at h <;> simp only [controllerArm, hm]
  · rw [hblankArm_exit h]
    refine ⟨?_, rfl⟩
    dsimp only
    split <;> rfl
  · rw [vblankArm_exit h]
    refine ⟨?_, rfl⟩
    dsimp only
    rw [hm]
    split <;> rfl
  · rw [oamArm_exit h]
    exact ⟨rfl, rfl⟩
  · rw [ptExit_exit h]
    exact ⟨rfl, rfl⟩

/-- Settles O29: a running TICK acts on the controller as its arm, which keeps the counted state or takes one edge. -/
theorem atMostOneTransitionPerTick : Obligations.AtMostOneTransitionPerTick := by
  intro n s t h ht
  have k := tick_controllerArm h ht
  refine ⟨fun hd => ?_, fun hd => ?_⟩
  · rw [controllerArm_of_lt (s := s.setCyc (s.cyc + n)) (Nat.lt_of_not_le hd)] at k
    exact ⟨k.mode, k.cyc, k.row⟩
  · obtain ⟨hedge, hcyc⟩ := controllerArm_edge (s := s.setCyc (s.cyc + n)) hd
    exact ⟨k.mode ▸ hedge, k.cyc.trans hcyc⟩

/-- `tick 0` takes no turn of the inner loop (R130). -/
theorem exec_tick_zero {s : State} (hs : s.Running) : exec (.tick 0) s = .next (controllerArm s) := by
  by_cases hm : s.mode = .pixelTransfer
  · rw [exec_of_running hs, commandBody_tick_pixelTransfer 0 hm]
    simp only [controllerArm, hm]
    rfl
  · exact exec_tick_of_ne hs hm

/-- Settles O28: `tick 0` is the controller's arm. -/
theorem tickZeroRunsTheArmOnce : Obligations.TickZeroRunsTheArmOnce := by
  intro s hs
  rw [exec_tick_zero hs]
  refine ⟨fun hlt => by rw [controllerArm_of_lt hlt], fun hge => ⟨_, rfl, controllerArm_edge hge⟩, fun hm hge => ?_⟩
  simp only [controllerArm, hm]
  rw [ptExit_exit hge]
  rfl

/-! ## The inner loop, turn by turn (R112-R115) -/

theorem innerLoop_of_nonpos (n fuel : Nat) {rem : Int} (h : rem ≤ 0) (s : State) :
    innerLoop n fuel rem s = .go s := by
  cases fuel with
  | zero => rfl
  | succ fuel => rw [innerLoop_succ, if_neg (Int.not_lt.2 h)]

/-- A bound no smaller than the remaining budget is never what ends the loop: one more changes nothing (R214). -/
theorem innerLoop_succ_fuel (n : Nat) {fuel : Nat} {rem : Int} (h : rem ≤ fuel) (s : State) :
    innerLoop n (fuel + 1) rem s = innerLoop n fuel rem s := by
  induction fuel generalizing rem s with
  | zero => rw [innerLoop_of_nonpos n _ h, innerLoop_of_nonpos n _ h]
  | succ fuel ih =>
    rw [innerLoop_succ, innerLoop_succ n fuel]
    split
    · split
      · rfl
      · have hrest : rem - (s.collab.pipe.answer Config.freePipeAnswer).cost ≤ (fuel : Int) := by omega
        simp only [ih hrest]
    · rfl

/-- Settles O23: one turn unfolded, and the bound it used given back. -/
theorem innerLoopIsTheWhileLoop : Obligations.InnerLoopIsTheWhileLoop := by
  intro n fuel rem s h
  refine ⟨fun h0 => innerLoop_of_nonpos n fuel h0 s, fun h0 => ?_⟩
  rw [← innerLoop_succ_fuel n h, innerLoop_succ, if_pos h0]

/-- Settles O24: the first turn of the loop, its `Pipe.process` call answered by 0. -/
theorem zeroCostOnTheFirstTurnFaultsAtOnce : Obligations.ZeroCostOnTheFirstTurnFaultsAtOnce := by
  intro s n hs hm hn hcost
  obtain ⟨k, rfl⟩ := Nat.exists_eq_succ_of_ne_zero hn.ne'
  rw [exec_of_running hs, commandBody_tick_pixelTransfer _ hm, innerLoop_succ, if_pos (by omega),
    State.setCyc_collab, if_pos hcost]
  rfl

/-- A loop with one cycle left, the Fetcher at TRANSFER_READY: one `Pipe.process` call and the hand-off (R145). -/
theorem innerLoop_one_of_ready {n : Nat} {s : State} (hf : s.f.state = .transferReady)
    (hcost : 1 ≤ (s.collab.pipe.answer Config.freePipeAnswer).cost) :
    innerLoop n 1 1 s = handOff (pipeProcess s).2 := by
  have hstep : fetcherStep (pipeProcess s).2 = .go (pipeProcess s).2 := if_pos hf
  rw [innerLoop_succ, if_pos (by decide), if_neg (Nat.pos_iff_ne_zero.1 hcost), hstep, Flow.andThen_go]
  cases handOff (pipeProcess s).2 <;> rfl

/-- Settles O26: the loop's one turn, its hand-off split by what the pipeline answers. -/
theorem handOffHappensOnlyToAnIdlePipeline : Obligations.HandOffHappensOnlyToAnIdlePipeline := by
  intro s p hs hm hf hp hcost hcyc
  have hloop := innerLoop_one_of_ready (n := 1) (s := s.setCyc (s.cyc + 1)) hf hcost
  rw [exec_of_running hs, commandBody_tick_pixelTransfer 1 hm, Nat.cast_one, hloop]
  rcases handOff_cases (pipeProcess (s.setCyc (s.cyc + 1))).2 with
    ⟨h, _⟩ | ⟨_, hb, e⟩ | ⟨_, _, hn, _⟩ | ⟨_, hb, q, hq, e⟩
  · exact absurd hf h
  · rw [e, Flow.andThen_go, settle_go, ptExit_of_lt hcyc]
    change s.collab.pipeIdle.answer Config.freePipeIdle = false at hb
    simp [hb, colAfter, State.setCyc, State.setCollab, State.log, State.setCur]
  · cases hp.symm.trans hn
  · obtain rfl : p = q := Option.some.inj (hp.symm.trans hq)
    rw [e, Flow.andThen_go, settle_go, ptExit_of_lt hcyc]
    change s.collab.pipeIdle.answer Config.freePipeIdle = true at hb
    simp [hb, colAfter, State.setCyc, State.setCollab, State.log, State.setCur, fetcherRestart, pipeLoad,
      State.setFetcher]

/-! ## Completion under the collaborators' contracts -/

theorem PipeOwesCost.of_feed_advance {k : Nat} {s t : State} (h : PipeOwesCost (k + 1) s)
    (hp : t.collab.pipe = s.collab.pipe.advance) : PipeOwesCost k t := fun j hj => by
  rw [hp, AnswerFeed.upcoming_advance]
  exact h (j + 1) (Nat.succ_lt_succ hj)

theorem RowsOweLength.of_feed_advance {k : Nat} {s t : State} (h : RowsOweLength (k + 1) s)
    (hp : t.collab.rowPixels = s.collab.rowPixels.advance) : RowsOweLength k t := fun j hj => by
  rw [hp, AnswerFeed.upcoming_advance]
  exact h (j + 1) (Nat.succ_lt_succ hj)

theorem RowsOweLength.of_feed_eq {k : Nat} {s t : State} (h : RowsOweLength (k + 1) s)
    (hp : t.collab.rowPixels = s.collab.rowPixels) : RowsOweLength k t := fun j hj => by
  rw [hp]
  exact h j (Nat.lt_succ_of_lt hj)

/-- From the Fetcher's invariant a fetch step goes on, taking at most one row of those the decoder owes. -/
theorem fetcherStep_go {k : Nat} {s : State} (hf : s.f.Inv) (hr : RowsOweLength (k + 1) s) :
    ∃ t, fetcherStep s = .go t ∧ RowsOweLength k t := by
  rcases fetcherStep_cases s with ⟨_, e⟩ | ⟨_, _, e⟩ | ⟨_, _, e⟩ | ⟨hs, _, e⟩ | ⟨hs, _, e⟩
  · exact ⟨_, e, hr.of_feed_eq rfl⟩
  · exact ⟨_, e, hr.of_feed_eq rfl⟩
  · refine ⟨_, e, hr.of_feed_eq ?_⟩
    rw [readTileNum_eq]
    rfl
  · rcases readData0_cases (setAcc 0 s) with ⟨hn, _⟩ | ⟨i, _, e'⟩
    · exact absurd hn (hf.index_set hs)
    · rw [e'] at e
      exact ⟨_, e, hr.of_feed_eq rfl⟩
  · rcases readData1_cases (setAcc 0 s) with ⟨hn, _⟩ | ⟨i, _, ⟨hl, _⟩ | ⟨_, e'⟩⟩
    · exact absurd hn (hf.tile_set hs)
    · have hrow := hr 0 k.succ_pos
      rw [AnswerFeed.upcoming_zero] at hrow
      exact absurd hrow (Nat.not_le.2 hl)
    · rw [e'] at e
      exact ⟨_, e, hr.of_feed_advance rfl⟩

/-- From the Fetcher's invariant the hand-off goes on, and asks neither for a cost nor for a row. -/
theorem handOff_go {s : State} (hf : s.f.Inv) :
    ∃ t, handOff s = .go t ∧ t.collab.pipe = s.collab.pipe ∧ t.collab.rowPixels = s.collab.rowPixels := by
  rcases handOff_cases s with ⟨_, e⟩ | ⟨_, _, e⟩ | ⟨hs, _, hn, _⟩ | ⟨_, _, p, _, e⟩
  · exact ⟨_, e, rfl, rfl⟩
  · exact ⟨_, e, rfl, rfl⟩
  · exact absurd hn (hf.row_set hs)
  · exact ⟨_, e, rfl, rfl⟩

/-- The inner loop ends without a fault or a refusal when the pipeline and the decoder keep their contracts for as many
answers as it can take turns (R113, R204). -/
theorem innerLoop_go (n : Nat) {fuel : Nat} {rem : Int} {s : State} (hf : s.f.Inv) (hp : PipeOwesCost fuel s)
    (hr : RowsOweLength fuel s) : ∃ t, innerLoop n fuel rem s = .go t := by
  induction fuel generalizing rem s with
  | zero => exact ⟨s, rfl⟩
  | succ fuel ih =>
    have hcost := hp 0 fuel.succ_pos
    rw [AnswerFeed.upcoming_zero] at hcost
    have hp₁ : PipeOwesCost fuel (pipeProcess s).2 := hp.of_feed_advance rfl
    obtain ⟨t, et, hrt⟩ := fetcherStep_go (s := (pipeProcess s).2) hf hr
    have ht : t.f.Inv := (fetcherStep_inv (s := (pipeProcess s).2) hf).1.of_eq_go et
    have hframe : FetchStepFrame (pipeProcess s).2 t := (fetcherStep_frame _).of_eq_go et
    obtain ⟨u, eu, hpu, hru⟩ := handOff_go ht
    have hu : u.f.Inv := (handOff_inv ht).1.of_eq_go eu
    rw [innerLoop_succ, if_neg (Nat.pos_iff_ne_zero.1 hcost), et, Flow.andThen_go, eu, Flow.andThen_go]
    split
    · refine ih hu (fun j hj => ?_) fun j hj => ?_
      · rw [hpu, hframe.pipe]
        exact hp₁ j hj
      · rw [hru]
        exact hrt j hj
    · exact ⟨s, rfl⟩

/-- Settles O22: the inner loop goes on, and the exit test follows it; the frames are those of every command. -/
theorem tickInPixelTransferCompletes : Obligations.TickInPixelTransferCompletes := by
  intro s n hs hf hm hp hr
  obtain ⟨u, hu⟩ := innerLoop_go n (rem := n) (s := s.setCyc (s.cyc + n)) hf hp hr
  have hbody : commandBody (.tick n) s = .go (ptExit u) := by
    rw [commandBody_tick_pixelTransfer n hm, hu, Flow.andThen_go]
  have h : exec (.tick n) s = .next (ptExit u) := by rw [exec_of_running hs, hbody, settle_go]
  have hrun : (ptExit u).Running := (commandBody_marks hs _).of_eq_go hbody
  have hinv : (ptExit u).f.Inv := (commandBody_fetcher_inv _ hf).of_eq_go hbody
  have k : SameController (s.setCyc (s.cyc + n)) u := (innerLoop_same n n n _).of_eq_go hu
  obtain ⟨hport, hcfg⟩ := exec_port_cfg h
  refine ⟨ptExit u, h, hrun, hinv, exec_mem h fun _ _ _ => by simp [hm], tick_row h (.inr hm), ?_, tick_responses h,
    hport, hcfg, exec_history h, fun hlt => ?_, fun hge => ?_⟩
  · rcases exec_frameReady h with e | ⟨_, _, _, hv, _⟩ | ⟨_, hr⟩
    · exact e
    · cases hm.symm.trans hv
    · cases hr
  · rw [ptExit_of_lt (k.cyc ▸ hlt)]
    exact ⟨k.mode.trans hm, k.cyc⟩
  · rw [ptExit_exit (k.cyc ▸ hge)]
    exact ⟨rfl, congrArg (· - ptBudget) k.cyc, rfl, rfl, rfl, List.getLast?_concat⟩

/-! ## Where a zero-cost fault comes from (R114, R182) -/

theorem Flow.andThen_eq_raise {x : Flow} {k : State → Flow} {c : FaultCode} {t : State}
    (h : x.andThen k = .raise c t) : x = .raise c t ∨ ∃ s, x = .go s ∧ k s = .raise c t := by
  cases x with
  | go s => exact .inr ⟨s, rfl, h⟩
  | raise => exact .inl h
  | refuse => cases h

/-- A fetch step raises only FLT_UNWRITTEN (R183). -/
theorem fetcherStep_raise {s t : State} {c : FaultCode} (h : fetcherStep s = .raise c t) : ∃ d, c = .unwritten d := by
  rcases fetcherStep_cases s with ⟨_, e⟩ | ⟨_, _, e⟩ | ⟨_, _, e⟩ | ⟨_, _, e⟩ | ⟨_, _, e⟩ <;> rw [e] at h
  · cases h
  · cases h
  · cases h
  · rcases readData0_cases (setAcc 0 s) with ⟨_, e⟩ | ⟨i, _, e⟩ <;> rw [e] at h <;> cases h
    exact ⟨_, rfl⟩
  · rcases readData1_cases (setAcc 0 s) with ⟨_, e⟩ | ⟨i, _, ⟨_, e⟩ | ⟨_, e⟩⟩ <;> rw [e] at h <;> cases h
    exact ⟨_, rfl⟩

/-- The hand-off raises only FLT_UNWRITTEN (R183). -/
theorem handOff_raise {s t : State} {c : FaultCode} (h : handOff s = .raise c t) : ∃ d, c = .unwritten d := by
  rcases handOff_cases s with ⟨_, e⟩ | ⟨_, _, e⟩ | ⟨_, _, _, e⟩ | ⟨_, _, p, _, e⟩ <;> rw [e] at h <;> cases h
  exact ⟨_, rfl⟩

/-- The inner loop's zero-cost fault: the operand, a remaining budget of at least 1 and at most what the loop began
with, and the call that answered 0 as the last event. -/
theorem innerLoop_raise_zeroCost {n fuel m : Nat} {rem r : Int} {s t : State}
    (h : innerLoop n fuel rem s = .raise (.pipeZeroCost m r) t) :
    m = n ∧ 0 < r ∧ r ≤ rem ∧
      ∃ cur newCol, t.history.getLast? = some (.pipeProcess cur { cost := 0, newCol := newCol }) := by
  induction fuel generalizing rem s with
  | zero => cases h
  | succ fuel ih =>
    rw [innerLoop_succ] at h
    split_ifs at h with hrem hcost
    · cases h
      refine ⟨rfl, hrem, le_rfl, s.cur, (s.collab.pipe.answer Config.freePipeAnswer).newCol, ?_⟩
      simp [← hcost]
    · rcases Flow.andThen_eq_raise h with h | ⟨u, _, h⟩
      · obtain ⟨d, hd⟩ := fetcherStep_raise h
        cases hd
      · rcases Flow.andThen_eq_raise h with h | ⟨v, _, h⟩
        · obtain ⟨d, hd⟩ := handOff_raise h
          cases hd
        · obtain ⟨hm, hr, hle, hlast⟩ := ih h
          exact ⟨hm, hr, by omega, hlast⟩

/-- A recorded fault was raised by the command's procedure. -/
theorem exec_fault {i : Instr} {s t : State} {c : FaultCode} (h : exec i s = .next t) (hc : t.fault = some c) :
    ∃ u, commandBody i s = .raise c u ∧ t = u.setFault c := by
  obtain ⟨hs, rfl⟩ := exec_next h
  have hmarks := commandBody_marks hs i
  cases e : commandBody i s with
  | go u => rw [e] at hc hmarks; cases hmarks.no_fault.symm.trans hc
  | raise c' u => rw [e] at hc; cases hc; exact ⟨u, rfl, rfl⟩
  | refuse r u => rw [e] at hc; cases hs.no_fault.symm.trans hc

/-- Settles O25: only TICK in PIXEL_TRANSFER raises the fault, in its inner loop, which leaves the controller alone. -/
theorem zeroCostFaultRecordsWhatHappened : Obligations.ZeroCostFaultRecordsWhatHappened := by
  intro i s t m rem h hfault
  obtain ⟨u, hbody, rfl⟩ := exec_fault h hfault
  cases i with
  | tick n =>
    by_cases hm : s.mode = .pixelTransfer
    · rw [commandBody_tick_pixelTransfer n hm] at hbody
      rcases Flow.andThen_eq_raise hbody with hloop | ⟨_, _, hexit⟩
      · have k := innerLoop_same n n n (s.setCyc (s.cyc + n))
        rw [hloop] at k
        obtain ⟨rfl, hr, hle, hlast⟩ := innerLoop_raise_zeroCost hloop
        exact ⟨rfl, hm, k.mode.trans hm, k.cyc, hr, hle, hlast⟩
      · cases hexit
    · rw [commandBody_tick_of_ne hm] at hbody
      cases hbody
  | fproc =>
    obtain ⟨d, hd⟩ := fetcherStep_raise hbody
    cases hd
  | freset | resolve | reset => cases hbody

/-! ## The granularity law (R126) -/

/-- `t` has the controller's fields of `s`, and its history the same writes. -/
structure SameTrace (s t : State) : Prop extends SameController s t where
  writes : memoryWrites t.history = memoryWrites s.history

theorem SameTrace.refl (s : State) : SameTrace s s := ⟨.refl s, rfl⟩

theorem SameTrace.trans {s t u : State} (h : SameTrace s t) (k : SameTrace t u) : SameTrace s u :=
  ⟨h.toSameController.trans k.toSameController, k.writes.trans h.writes⟩

theorem SameTrace.setCyc {s t : State} (h : SameTrace s t) (c : Nat) : SameTrace (s.setCyc c) (t.setCyc c) :=
  ⟨⟨h.mode, rfl, h.row, h.frameReady, h.mem, h.responses, h.port, h.cfg⟩, h.writes⟩

@[simp] theorem memoryWrites_append (es fs : List Event) :
    memoryWrites (es ++ fs) = memoryWrites es ++ memoryWrites fs := List.filter_append ..

/-- The writes are among the memory accesses. -/
theorem memoryWrites_memoryEvents (es : List Event) : memoryWrites (memoryEvents es) = memoryWrites es := by
  rw [memoryWrites, memoryEvents, List.filter_filter, memoryWrites]
  refine List.filter_congr fun e _ => ?_
  cases e <;> rfl

/-! ### The writes of a TICK -/

/-- A fetch step writes no byte. -/
theorem fetcherStep_writes (s : State) : (fetcherStep s).All fun t => memoryWrites t.history = memoryWrites s.history := by
  refine (fetcherStep_record s).imp fun t ⟨new, e, _, hnew⟩ => ?_
  have hnil : memoryWrites new = [] := by
    rw [← memoryWrites_memoryEvents]
    rcases hnew with hnew | hnew <;> rw [hnew] <;> rfl
  rw [e, memoryWrites_append, hnil, List.append_nil]

theorem handOff_writes (s : State) : (handOff s).All fun t => memoryWrites t.history = memoryWrites s.history := by
  rcases handOff_cases s with ⟨_, e⟩ | ⟨_, _, e⟩ | ⟨_, _, _, e⟩ | ⟨_, _, p, _, e⟩ <;> rw [e] <;>
    simp [memoryWrites, fetcherRestart, pipeLoad]

theorem innerLoop_writes (n fuel : Nat) (rem : Int) (s : State) :
    (innerLoop n fuel rem s).All fun t => memoryWrites t.history = memoryWrites s.history :=
  innerLoop_all (P := fun t => memoryWrites t.history = memoryWrites s.history)
    (fun _ h => by simpa [memoryWrites] using h)
    (fun t h => (fetcherStep_writes t).imp fun _ k => k.trans h)
    (fun t h => (handOff_writes t).imp fun _ k => k.trans h) n fuel rem s rfl

theorem ptExit_writes (s : State) : memoryWrites (ptExit s).history = memoryWrites s.history := by
  rcases Nat.lt_or_ge s.cyc ptBudget with hc | hc
  · rw [ptExit_of_lt hc]
  · rw [ptExit_exit hc]
    simp [memoryWrites]

/-! ### The controller's arm depends on the controller's fields alone -/

theorem SameTrace.log {s t : State} (h : SameTrace s t) (e : Event) : SameTrace (s.log e) (t.log e) :=
  ⟨⟨h.mode, h.cyc, h.row, h.frameReady, h.mem, h.responses, h.port, h.cfg⟩, by simp [h.writes]⟩

theorem SameTrace.setMem {s t : State} (h : SameTrace s t) (m : Memory) : SameTrace (s.setMem m) (t.setMem m) :=
  ⟨⟨h.mode, h.cyc, h.row, h.frameReady, rfl, h.responses, h.port, h.cfg⟩, h.writes⟩

theorem SameTrace.memRmwSet {s t : State} (h : SameTrace s t) (a : Nat) (mask : Byte) :
    SameTrace (memRmwSet a mask s) (memRmwSet a mask t) := by
  rw [memRmwSet_eq, memRmwSet_eq, h.mem]
  exact ((h.log _).setMem _).log _

theorem SameTrace.raiseLatched {s t : State} (h : SameTrace s t) (test set : Byte) (b : Fin 8) :
    SameTrace (raiseLatched test set b s) (raiseLatched test set b t) := by
  rw [raiseLatched_eq, raiseLatched_eq, h.mem, h.cfg]
  split
  · exact h.log _
  · exact ((h.log _).memRmwSet _ _).memRmwSet _ _

section Arms

variable {s t : State} (h : SameTrace s t)

include h

theorem SameTrace.hblankArm : SameTrace (hblankArm s) (hblankArm t) := by
  rcases Nat.lt_or_ge s.cyc hblankBudget with hc | hc
  · rwa [hblankArm_of_lt hc, hblankArm_of_lt (h.cyc ▸ hc)]
  · have k := h.raiseLatched s.cfg.statM0Test s.cfg.statM0Set s.cfg.irq.lcdcStat.bit
    rw [hblankArm_exit hc, hblankArm_exit (h.cyc ▸ hc), h.cfg, h.row, h.cyc]
    refine ⟨⟨rfl, rfl, rfl, h.frameReady, ?_, h.responses, h.port, rfl⟩, ?_⟩
    · simp only [k.mem, lyByte, h.row]
    · simp only [memoryWrites_append, k.writes, lyByte, h.row]

theorem SameTrace.vblankArm : SameTrace (vblankArm s) (vblankArm t) := by
  rcases Nat.lt_or_ge s.cyc vblankLineBudget with hc | hc
  · rwa [vblankArm_of_lt hc, vblankArm_of_lt (h.cyc ▸ hc)]
  · have k := h.raiseLatched s.cfg.statM1Test s.cfg.statM1Set s.cfg.irq.vblank.bit
    rw [vblankArm_exit hc, vblankArm_exit (h.cyc ▸ hc), h.cfg, h.row, h.cyc, h.mode, h.frameReady]
    refine ⟨⟨rfl, rfl, rfl, rfl, ?_, h.responses, h.port, rfl⟩, ?_⟩
    · simp only [k.mem, lyByte, h.row]
    · simp only [memoryWrites_append, k.writes, lyByte, h.row]

theorem SameTrace.oamArm : SameTrace (oamArm s) (oamArm t) := by
  rcases Nat.lt_or_ge s.cyc oamBudget with hc | hc
  · rwa [oamArm_of_lt hc, oamArm_of_lt (h.cyc ▸ hc)]
  · rw [oamArm_exit hc, oamArm_exit (h.cyc ▸ hc), h.cfg, h.row, h.cyc, h.mem]
    exact ⟨⟨rfl, rfl, h.row, h.frameReady, rfl, h.responses, h.port, rfl⟩, by
      simp only [memoryWrites_append, h.writes]⟩

theorem SameTrace.controllerArm : SameTrace (controllerArm s) (controllerArm t) := by
  cases hm : s.mode <;> simp only [Machine.controllerArm, hm, h.mode.trans hm]
  · exact h.hblankArm
  · exact h.vblankArm
  · exact h.oamArm
  · exact ⟨ptExit_same h.toSameController, by rw [ptExit_writes, ptExit_writes, h.writes]⟩

end Arms

/-! ### Small TICKs as single cycles -/

/-- The controller's part of a TICK (R105): accumulate, then the arm. -/
def State.advance (n : Nat) (s : State) : State := controllerArm (s.setCyc (s.cyc + n))

theorem SameTrace.advance {s t : State} (h : SameTrace s t) (n : Nat) : SameTrace (s.advance n) (t.advance n) := by
  rw [State.advance, State.advance, h.cyc]
  exact (h.setCyc _).controllerArm

/-- A TICK that leaves the block running has the controller's fields and the writes of `advance`. -/
theorem tick_advance {n : Nat} {s t : State} (h : exec (.tick n) s = .next t) (ht : t.Running) :
    SameTrace (s.advance n) t := by
  refine ⟨tick_controllerArm h ht, ?_⟩
  by_cases hm : s.mode = .pixelTransfer
  · obtain ⟨_, rfl⟩ := exec_next h
    have hw := innerLoop_writes n n n (s.setCyc (s.cyc + n))
    simp only [State.advance, controllerArm, State.setCyc_mode, hm, ptExit_writes, State.setCyc_history]
    rcases tick_pixelTransfer_cases n hm with ⟨u, eu, _, e⟩ | ⟨c, u, _, _, e⟩ | ⟨r, u, _, _, e⟩
    · rw [e, settle_go, ptExit_writes]
      exact hw.of_eq_go eu
    · rw [e] at ht
      cases ht.no_fault
    · rw [e] at ht
      cases ht.no_refusal
  · obtain ⟨_, rfl⟩ := tick_eq_controllerArm h hm
    rfl

theorem raiseLatched_setCyc (test set : Byte) (b : Fin 8) (s : State) (c : Nat) :
    raiseLatched test set b (s.setCyc c) = (raiseLatched test set b s).setCyc c := by
  rw [raiseLatched_eq, raiseLatched_eq, State.setCyc_mem, State.setCyc_cfg]
  split <;> rfl

/-- An exit is the exit at the budget itself, with the leftover cycles kept (R125). -/
theorem controllerArm_setCyc_of_le {s : State} {c : Nat} (hc : modeBudget s.mode ≤ c) :
    controllerArm (s.setCyc c) =
      (controllerArm (s.setCyc (modeBudget s.mode))).setCyc (c - modeBudget s.mode) := by
  cases hm : s.mode <;> rw [hm] at hc <;> simp only [controllerArm, State.setCyc_mode, hm]
  · rw [hblankArm_exit (s := s.setCyc c) hc, hblankArm_exit (s := s.setCyc (modeBudget .hblank)) le_rfl]
    simp only [raiseLatched_setCyc]
    rfl
  · rw [vblankArm_exit (s := s.setCyc c) hc, vblankArm_exit (s := s.setCyc (modeBudget .vblank)) le_rfl]
    simp only [raiseLatched_setCyc]
    rfl
  · rw [oamArm_exit (s := s.setCyc c) hc, oamArm_exit (s := s.setCyc (modeBudget .oamSearch)) le_rfl]
    rfl
  · rw [ptExit_exit (s := s.setCyc c) hc, ptExit_exit (s := s.setCyc (modeBudget .pixelTransfer)) le_rfl]
    rfl

section Small

variable {s : State} (hs : s.cyc < modeBudget s.mode)

include hs

/-- After at most 80 cycles no exit is overdue: every budget is at least 80. -/
theorem advance_cyc_lt {n : Nat} (hn : n ≤ 80) : (s.advance n).cyc < modeBudget (s.advance n).mode := by
  rcases Nat.lt_or_ge (s.cyc + n) (modeBudget s.mode) with hc | hc
  · rwa [State.advance, controllerArm_of_lt (s := s.setCyc (s.cyc + n)) hc]
  · rw [State.advance, controllerArm_setCyc_of_le hc]
    exact leftover_lt_modeBudget hc (by omega) _

/-- At most 80 cycles in two steps are the same cycles in one: at most one exit is due among them. -/
theorem advance_advance {m k : Nat} (hmk : m + k ≤ 80) : (s.advance m).advance k = s.advance (m + k) := by
  rcases Nat.lt_or_ge (s.cyc + m) (modeBudget s.mode) with hc | hc
  · rw [State.advance.eq_def m, controllerArm_of_lt (s := s.setCyc (s.cyc + m)) hc, State.advance, State.advance,
      ← Nat.add_assoc]
    rfl
  · rw [State.advance.eq_def m, State.advance.eq_def (m + k), controllerArm_setCyc_of_le hc,
      controllerArm_setCyc_of_le (c := s.cyc + (m + k)) (by omega), State.advance]
    have hrest : s.cyc + m - modeBudget s.mode + k = s.cyc + (m + k) - modeBudget s.mode := by omega
    rw [State.setCyc_cyc, hrest]
    exact controllerArm_of_lt (leftover_lt_modeBudget (by omega) (by omega) _)

theorem advance_eq_iterate {n : Nat} (hn : n ≤ 80) : s.advance n = (State.advance 1)^[n] s := by
  induction n with
  | zero => exact controllerArm_of_lt hs
  | succ n ih => rw [Function.iterate_succ_apply', ← ih (by omega), advance_advance hs hn]

end Small

theorem SameTrace.iterate_advance {s t : State} (h : SameTrace s t) (k : Nat) :
    SameTrace ((State.advance 1)^[k] s) ((State.advance 1)^[k] t) := by
  induction k with
  | zero => exact h
  | succ k ih =>
    rw [Function.iterate_succ_apply', Function.iterate_succ_apply']
    exact ih.advance 1

/-- A run of small TICKs is as many single cycles as its operands' sum. -/
theorem runCommands_small_ticks {ns : List Nat} {s t : State} (hn : ∀ n ∈ ns, n ≤ 80)
    (hs : s.cyc < modeBudget s.mode) (h : runCommands (ticks ns) s = .next t) (ht : t.Running) :
    SameTrace ((State.advance 1)^[ns.sum] s) t ∧ t.cyc < modeBudget t.mode := by
  induction ns generalizing s with
  | nil =>
    cases h
    exact ⟨.refl _, hs⟩
  | cons n ns ih =>
    obtain ⟨hn80, hns⟩ := List.forall_mem_cons.1 hn
    obtain ⟨u, hu, hrun⟩ := runCommands_ticks_cons h
    have k := tick_advance hu (runCommands_running hrun ht)
    have hcyc : u.cyc < modeBudget u.mode := by
      rw [k.cyc, k.mode]
      exact advance_cyc_lt hs hn80
    obtain ⟨hst, hlt⟩ := ih hns hcyc hrun
    rw [advance_eq_iterate hs hn80] at k
    rw [List.sum_cons, Nat.add_comm, Function.iterate_add_apply]
    exact ⟨(k.iterate_advance _).trans hst, hlt⟩

theorem SameTrace.view_eq {s t : State} (h : SameTrace s t) : t.view = s.view := by
  simp only [State.view, h.mode, h.cyc, h.row, h.frameReady, h.mem]

/-- Settles O30: both sequences are the same number of single cycles. -/
theorem onlyTheSumOfSmallTicksMatters : Obligations.OnlyTheSumOfSmallTicksMatters := by
  intro ns ms s t u hns hms hsum hs ht htr hu hur
  obtain ⟨kt, hlt⟩ := runCommands_small_ticks hns hs ht htr
  obtain ⟨ku, _⟩ := runCommands_small_ticks hms hs hu hur
  rw [← hsum] at ku
  exact ⟨kt.view_eq.trans ku.view_eq.symm, kt.writes.trans ku.writes.symm, hlt⟩

end Sys2Proof.Machine

/-! The Tile Fetcher (spec/42_tile_fetcher.md). Each micro-step is said once, as the whole next state; FPROC settles it.
The column period follows the Fetcher's phase, the fetch steps since READ_TILE_NUM began, through the turns of the inner
loop. -/

namespace Sys2Proof.Machine

/-! ## The micro-steps, as whole next states (R142-R144) -/

/-- READ_TILE_NUM done (R142). -/
def State.tileNumFetched (s : State) : State :=
  let base := s.collab.mapBase.answer Config.freeMapBase
  let index := s.collab.tileNumber.answer Config.freeTileNumber
  { s with
    f := { s.f with state := .readData0, tileX := s.f.tileX + 8, tileIndex := some index }
    collab := { s.collab with
      mapBase := s.collab.mapBase.advance, tileNumber := s.collab.tileNumber.advance }
    history := s.history ++ [.memRead s.cfg.addrScx (readReg s .scx), .memRead s.cfg.addrScy (readReg s .scy),
      .mapBase base, .tileNumberAt (fetchAddr s (readReg s .scx) (readReg s .scy) base) index] }

/-- READ_DATA_0 done for the tile index `i` (R143). -/
def State.tileFetched (i : TileIndex) (s : State) : State :=
  let tile := s.collab.tile.answer Config.freeTile
  { s with
    f := { s.f with state := .readData1, tile := some tile }
    collab := { s.collab with tile := s.collab.tile.advance }
    history := s.history ++ [.tileFor i tile] }

/-- READ_DATA_1 done for `tile` (R144). -/
def State.rowFetched (tile : Tile) (s : State) : State :=
  let row := s.collab.rowPixels.answer Config.freeRowPixels
  { s with
    f := { s.f with state := .transferReady, pixRow := some row }
    collab := { s.collab with rowPixels := s.collab.rowPixels.advance }
    history := s.history ++ [.rowPixels tile (rowInTile s) row] }

section Work

variable {s : State}

theorem fetcherWork_readTileNum (h : s.f.state = .readTileNum) : fetcherWork s = .go s.tileNumFetched := by
  simp only [fetcherWork, h, readTileNum_eq]
  rfl

theorem fetcherWork_readData0 {i : TileIndex} (h : s.f.state = .readData0) (hi : s.f.tileIndex = some i) :
    fetcherWork s = .go (s.tileFetched i) := by
  simp only [fetcherWork, h, readData0, hi]
  rfl

theorem fetcherWork_readData0_unwritten (h : s.f.state = .readData0) (hi : s.f.tileIndex = none) :
    fetcherWork s = .raise (.unwritten .tileIndex) s := by
  simp only [fetcherWork, h, readData0, hi, Flow.andThen_raise]

theorem fetcherWork_readData1 {tile : Tile} (h : s.f.state = .readData1) (ht : s.f.tile = some tile)
    (hp : (s.collab.rowPixels.answer Config.freeRowPixels).length ≤ 8) :
    fetcherWork s = .go (s.rowFetched tile) := by
  simp only [fetcherWork, h, readData1, ht, tileRowPixelsCall_fst, tileRowPixels, gt_iff_lt, if_neg (Nat.not_lt.2 hp)]
  rfl

theorem fetcherWork_readData1_refused {tile : Tile} (h : s.f.state = .readData1) (ht : s.f.tile = some tile)
    (hp : 8 < (s.collab.rowPixels.answer Config.freeRowPixels).length) :
    fetcherWork s = .refuse .collaboratorAnswer (tileRowPixelsCall tile (rowInTile s) s).2 := by
  simp only [fetcherWork, h, readData1, ht, tileRowPixelsCall_fst, tileRowPixels, gt_iff_lt, if_pos hp,
    Flow.andThen_refuse]

theorem fetcherWork_readData1_unwritten (h : s.f.state = .readData1) (ht : s.f.tile = none) :
    fetcherWork s = .raise (.unwritten .tile) s := by
  simp only [fetcherWork, h, readData1, ht, Flow.andThen_raise]

/-! ## The divider (R141, R145) -/

theorem fetcherStep_of_ready (h : s.f.state = .transferReady) : fetcherStep s = .go s := if_pos h

theorem fetcherStep_of_held (h : s.f.state ≠ .transferReady) (ha : s.f.acc + 1 < 2) :
    fetcherStep s = .go (setAcc (s.f.acc + 1) s) := (if_neg h).trans (if_pos ha)

theorem fetcherStep_of_fires (h : s.f.state ≠ .transferReady) (ha : 2 ≤ s.f.acc + 1) :
    fetcherStep s = fetcherWork (setAcc 0 s) := (if_neg h).trans (if_neg (Nat.not_lt.2 ha))

/-- A step that was held back is followed by one that fires. -/
theorem fetcherStep_setAcc_one (h : s.f.state ≠ .transferReady) :
    fetcherStep (setAcc 1 s) = fetcherWork (setAcc 0 s) := fetcherStep_of_fires h (Nat.le_refl 2)

end Work

/-! ## FPROC and FRESET -/

section Fproc

variable {s : State} (hs : s.Running)

include hs

theorem exec_fproc_of_go {t : State} (h : fetcherStep s = .go t) : exec .fproc s = .next t := by
  rw [exec_of_running hs, commandBody, h, settle_go]

theorem exec_fproc_of_fires (h : s.f.state ≠ .transferReady) (ha : 2 ≤ s.f.acc + 1) :
    exec .fproc s = .next (settle s (fetcherWork (setAcc 0 s))) := by
  rw [exec_of_running hs, commandBody, fetcherStep_of_fires h ha]

end Fproc

/-- Settles O34: the two cases in which the divider lets no work through. -/
theorem fprocWaitsAndCounts : Obligations.FprocWaitsAndCounts := fun _ hs =>
  ⟨fun h => exec_fproc_of_go hs (fetcherStep_of_ready h), fun h ha => exec_fproc_of_go hs (fetcherStep_of_held h ha)⟩

/-- Settles O35: READ_TILE_NUM's work, with the address function written out. -/
theorem fprocReadsTheTileNumber : Obligations.FprocReadsTheTileNumber := by
  intro s hs h ha
  dsimp only
  rw [exec_fproc_of_fires hs (by simp [h]) ha, fetcherWork_readTileNum (s := setAcc 0 s) h]
  rfl

/-- Settles O36: READ_DATA_0's work, with an index and without one. -/
theorem fprocResolvesTheTile : Obligations.FprocResolvesTheTile := by
  intro s hs h ha
  rw [exec_fproc_of_fires hs (by simp [h]) ha]
  refine ⟨fun i hi => ?_, fun hi => ?_⟩
  · rw [fetcherWork_readData0 (s := setAcc 0 s) h hi]
    rfl
  · rw [fetcherWork_readData0_unwritten (s := setAcc 0 s) h hi]
    rfl

/-- Settles O37: READ_DATA_1's work for a row of the contract's length, for a longer one, and without a tile. -/
theorem fprocExtractsThePixelRow : Obligations.FprocExtractsThePixelRow := by
  intro s hs h ha
  dsimp only
  rw [exec_fproc_of_fires hs (by simp [h]) ha]
  refine ⟨fun tile ht hp => ?_, fun tile ht hp => ?_, fun ht => ?_⟩
  · rw [fetcherWork_readData1 (s := setAcc 0 s) h ht hp]
    rfl
  · rw [fetcherWork_readData1_refused (s := setAcc 0 s) h ht hp]
    rfl
  · rw [fetcherWork_readData1_unwritten (s := setAcc 0 s) h ht]
    rfl

/-- Settles O40: FRESET's procedure is FetcherReset alone (R146). -/
theorem fresetReturnsToTheScanlineStart : Obligations.FresetReturnsToTheScanlineStart := by
  intro s hs
  rw [exec_of_running hs, commandBody, settle_go]
  rfl

/-! ## Six fetch steps (R148) -/

/-- FPROC repeated along a sequence of states each of whose fetch steps goes on to the next. -/
theorem runCommands_fproc {t : Nat → State} (h0 : (t 0).Running) (ht : ∀ k, fetcherStep (t k) = .go (t (k + 1)))
    (k : Nat) : runCommands (List.replicate k .fproc) (t 0) = .next (t k) ∧ (t k).Running := by
  induction k generalizing t with
  | zero => exact ⟨rfl, h0⟩
  | succ k ih =>
    rw [List.replicate_succ, runCommands, exec_fproc_of_go h0 (ht 0)]
    exact ih (t := fun j => t (j + 1)) ((fetcherStep_marks h0).of_eq_go (ht 0)) fun j => ht (j + 1)

/-- The state after each fetch step from READ_TILE_NUM: the divider holds back every odd step, and from the sixth on
nothing is left to do. -/
def fetchSequence (s : State) : Nat → State
  | 0 => s
  | 1 => setAcc 1 s
  | 2 => (setAcc 0 s).tileNumFetched
  | 3 => setAcc 1 (setAcc 0 s).tileNumFetched
  | 4 => (setAcc 0 s).tileNumFetched.tileFetched (s.collab.tileNumber.answer Config.freeTileNumber)
  | 5 => setAcc 1 ((setAcc 0 s).tileNumFetched.tileFetched (s.collab.tileNumber.answer Config.freeTileNumber))
  | _ => ((setAcc 0 s).tileNumFetched.tileFetched (s.collab.tileNumber.answer Config.freeTileNumber)).rowFetched
      (s.collab.tile.answer Config.freeTile)

theorem fetcherStep_fetchSequence {s : State} (h : s.f.state = .readTileNum) (ha : s.f.acc = 0)
    (hp : RowsOweLength 1 s) (k : Nat) : fetcherStep (fetchSequence s k) = .go (fetchSequence s (k + 1)) := by
  have h0 : FetchState.readData0 ≠ .transferReady := by decide
  have h1 : FetchState.readData1 ≠ .transferReady := by decide
  match k with
  | 0 => rw [fetchSequence, fetcherStep_of_held (by simp [h]) (by simp [ha]), ha]; rfl
  | 1 => exact (fetcherStep_setAcc_one (by simp [h])).trans (fetcherWork_readTileNum h)
  | 2 => exact fetcherStep_of_held h0 Nat.one_lt_two
  | 3 => exact (fetcherStep_setAcc_one h0).trans (fetcherWork_readData0 rfl rfl)
  | 4 => exact fetcherStep_of_held h1 Nat.one_lt_two
  | 5 =>
    have hrow := hp 0 Nat.one_pos
    rw [AnswerFeed.upcoming_zero] at hrow
    exact (fetcherStep_setAcc_one h1).trans (fetcherWork_readData1 rfl rfl hrow)
  | _ + 6 => exact fetcherStep_of_ready rfl

/-- Settles O38: each clause reads one state of the sequence. -/
theorem sixFetchStepsReachTransferReady : Obligations.SixFetchStepsReachTransferReady := by
  intro s hs h ha hp
  refine ⟨fetchSequence s, runCommands_fproc (t := fetchSequence s) hs (fetcherStep_fetchSequence h ha hp),
    h, rfl, rfl, rfl, rfl, rfl, rfl, rfl, rfl, rfl, rfl,
    ⟨_, _, _, _, _, rfl, rfl, _, rfl, rfl, _, rfl, rfl⟩, rfl, rfl, fun k => ?_⟩
  rw [Nat.add_comm]
  rfl

/-! ## The Fetcher's phase (R141, R153) -/

/-- The fetch steps since READ_TILE_NUM began: two for each state, the last of them the divider's count; 6 at
TRANSFER_READY. -/
def Fetcher.phase (f : Fetcher) : Nat := 2 * (fetchStateCode f.state).toNat + f.acc

/-- What lets the Fetcher go on: of its invariant all but the cursor and the row left over from before. -/
structure Fetcher.Fed (f : Fetcher) : Prop where
  acc_lt    : f.acc < 2
  acc_ready : f.state = .transferReady → f.acc = 0
  index_set : f.state = .readData0 → f.tileIndex ≠ none
  tile_set  : f.state = .readData1 → f.tile ≠ none
  row_set   : f.state = .transferReady → f.pixRow ≠ none

/-- `t` is `c` tile-number look-ups after `s`: the tile cursor has moved by 8 for each (R142). -/
structure LookupsAfter (c : Nat) (s t : State) : Prop where
  tileX   : t.f.tileX = s.f.tileX + 8 * c
  lookups : tileNumCount t.history = tileNumCount s.history + c

theorem LookupsAfter.trans {c d : Nat} {s t u : State} (h : LookupsAfter c s t) (k : LookupsAfter d t u) :
    LookupsAfter (c + d) s u :=
  ⟨by rw [k.tileX, h.tileX]; omega, by rw [k.lookups, h.lookups, Nat.add_assoc]⟩

@[simp] theorem tileNumCount_append (es fs : List Event) :
    tileNumCount (es ++ fs) = tileNumCount es + tileNumCount fs := List.countP_append

@[simp] theorem loadCount_append (es fs : List Event) : loadCount (es ++ fs) = loadCount es + loadCount fs :=
  List.countP_append

theorem Fetcher.Fed.phase_lt_six {f : Fetcher} (h : f.Fed) (hs : f.state ≠ .transferReady) : f.phase < 6 := by
  have hacc := h.acc_lt
  have hcode : (fetchStateCode f.state).toNat ≤ 2 := by
    cases e : f.state with
    | transferReady => exact absurd e hs
    | readTileNum | readData0 | readData1 => decide
  unfold Fetcher.phase
  omega

theorem Fetcher.Fed.phase_eq_six_iff {f : Fetcher} (h : f.Fed) : f.phase = 6 ↔ f.state = .transferReady := by
  refine ⟨fun hp => ?_, fun hs => ?_⟩
  · by_contra hs
    exact (h.phase_lt_six hs).ne hp
  · rw [Fetcher.phase, hs, h.acc_ready hs]
    rfl

/-- A fetch step hands no row over (R150). -/
theorem loadCount_fetcherStep {s t : State} (e : fetcherStep s = .go t) :
    loadCount t.history = loadCount s.history := by
  obtain ⟨new, hnew, h0, _⟩ := (fetcherStep_record s).of_eq_go e
  rw [hnew, loadCount_append, h0, Nat.add_zero]

section Phase

variable {s : State} (hf : s.f.Fed)

include hf

/-- The step that fires is one phase on; the one from phase 1 looks up a tile number. -/
theorem fetcherStep_phase_of_fires (hs : s.f.state ≠ .transferReady) (ha : 2 ≤ s.f.acc + 1)
    (hrow : (s.collab.rowPixels.answer Config.freeRowPixels).length ≤ 8) :
    ∃ t, fetcherStep s = .go t ∧ t.f.Fed ∧ t.f.phase = s.f.phase + 1 ∧
      LookupsAfter (if s.f.phase = 1 then 1 else 0) s t := by
  have hacc : s.f.acc = 1 := Nat.le_antisymm (Nat.le_of_lt_succ hf.acc_lt) (Nat.le_of_succ_le_succ ha)
  rw [fetcherStep_of_fires hs ha]
  cases hst : s.f.state with
  | transferReady => exact absurd hst hs
  | readTileNum =>
    have hp : s.f.phase = 1 := by rw [Fetcher.phase, hst, hacc]; rfl
    rw [hp]
    exact ⟨_, fetcherWork_readTileNum (s := setAcc 0 s) hst, ⟨Nat.two_pos, nofun, nofun, nofun, nofun⟩, rfl,
      rfl, tileNumCount_append _ _⟩
  | readData0 =>
    have hp : s.f.phase = 3 := by rw [Fetcher.phase, hst, hacc]; rfl
    obtain ⟨i, hi⟩ := Option.ne_none_iff_exists'.1 (hf.index_set hst)
    rw [hp]
    exact ⟨_, fetcherWork_readData0 (s := setAcc 0 s) hst hi, ⟨Nat.two_pos, nofun, nofun, nofun, nofun⟩, rfl,
      rfl, tileNumCount_append _ _⟩
  | readData1 =>
    have hp : s.f.phase = 5 := by rw [Fetcher.phase, hst, hacc]; rfl
    obtain ⟨tile, ht⟩ := Option.ne_none_iff_exists'.1 (hf.tile_set hst)
    rw [hp]
    exact ⟨_, fetcherWork_readData1 (s := setAcc 0 s) hst ht hrow,
      ⟨Nat.two_pos, fun _ => rfl, nofun, nofun, nofun⟩, rfl, rfl, tileNumCount_append _ _⟩

/-- A fetch step is one phase on, up to TRANSFER_READY; the one from phase 1 looks up a tile number. -/
theorem fetcherStep_phase (hrow : (s.collab.rowPixels.answer Config.freeRowPixels).length ≤ 8) :
    ∃ t, fetcherStep s = .go t ∧ t.f.Fed ∧ t.f.phase = min (s.f.phase + 1) 6 ∧
      LookupsAfter (if s.f.phase = 1 then 1 else 0) s t := by
  by_cases hs : s.f.state = .transferReady
  · have hp : s.f.phase = 6 := hf.phase_eq_six_iff.2 hs
    rw [hp]
    exact ⟨s, fetcherStep_of_ready hs, hf, hp, rfl, rfl⟩
  have hp : s.f.phase + 1 ≤ 6 := hf.phase_lt_six hs
  rw [Nat.min_eq_left hp]
  rcases Nat.lt_or_ge (s.f.acc + 1) 2 with ha | ha
  · have hne : s.f.phase ≠ 1 := by unfold Fetcher.phase; omega
    rw [if_neg hne]
    exact ⟨_, fetcherStep_of_held hs ha, ⟨ha, fun h => absurd h hs, hf.index_set, hf.tile_set, hf.row_set⟩, rfl,
      rfl, rfl⟩
  · exact fetcherStep_phase_of_fires hf hs ha hrow

/-- An idle pipeline is handed the row of a Fetcher at TRANSFER_READY, which is then back at phase 0 with its cursor kept
(R115, R152). -/
theorem handOff_of_idle (hp : s.f.phase = 6) (hb : s.collab.pipeIdle.answer Config.freePipeIdle = true) :
    ∃ u, handOff s = .go u ∧ u.f.Fed ∧ u.f.phase = 0 ∧ LookupsAfter 0 s u ∧
      loadCount u.history = loadCount s.history + 1 := by
  rw [hf.phase_eq_six_iff] at hp
  rcases handOff_cases s with ⟨hs, _⟩ | ⟨_, hi, _⟩ | ⟨hs, _, hn, _⟩ | ⟨_, _, p, _, e⟩
  · exact absurd hp hs
  · cases hi.symm.trans hb
  · exact absurd hn (hf.row_set hs)
  · exact ⟨_, e, ⟨Nat.two_pos, nofun, nofun, nofun, nofun⟩, rfl,
      ⟨rfl, (tileNumCount_append _ _).trans (tileNumCount_append _ _)⟩,
      (loadCount_append _ _).trans (congrArg (· + 1) (loadCount_append _ _))⟩

/-- Before TRANSFER_READY, and with a busy pipeline, the hand-off leaves the Fetcher as it is (R115). -/
theorem handOff_of_waiting (hp : s.f.phase = 6 → s.collab.pipeIdle.answer Config.freePipeIdle = false) :
    ∃ u, handOff s = .go u ∧ u.f = s.f ∧ LookupsAfter 0 s u ∧ loadCount u.history = loadCount s.history := by
  rw [hf.phase_eq_six_iff] at hp
  rcases handOff_cases s with ⟨_, e⟩ | ⟨_, _, e⟩ | ⟨hs, hb, _⟩ | ⟨hs, hb, _⟩
  · exact ⟨s, e, rfl, ⟨rfl, rfl⟩, rfl⟩
  · exact ⟨_, e, rfl, ⟨rfl, tileNumCount_append _ _⟩, loadCount_append _ _⟩
  all_goals cases (hp hs).symm.trans hb

end Phase

/-! ## Turns of the inner loop (R112, R153) -/

/-- One turn of the inner loop, (a) to (c), goes on from `s` to `u` (R112). -/
def Turn (s u : State) : Prop := ∃ t, fetcherStep (pipeProcess s).2 = .go t ∧ handOff t = .go u

/-- What the collaborators owe over the next `k` turns: costs of at least 1, rows of at most 8 samples, and a pipeline
that answers `idle` throughout. -/
structure TurnContracts (idle : Bool) (k : Nat) (s : State) : Prop where
  cost : PipeOwesCost k s
  rows : RowsOweLength k s
  idle : ∀ j < k, s.collab.pipeIdle.upcoming Config.freePipeIdle j = idle

/-- The sum of the next `k` costs. -/
def turnBudget (k : Nat) (s : State) : Nat :=
  ((List.range k).map fun j => (s.collab.pipe.upcoming Config.freePipeAnswer j).cost).sum

theorem fetcherStep_rowPixels (s : State) : (fetcherStep s).All fun t =>
    t.collab.rowPixels = s.collab.rowPixels ∨ t.collab.rowPixels = s.collab.rowPixels.advance := by
  rcases fetcherStep_cases s with ⟨_, e⟩ | ⟨_, _, e⟩ | ⟨_, _, e⟩ | ⟨_, _, e⟩ | ⟨_, _, e⟩ <;> rw [e]
  · exact .inl rfl
  · exact .inl rfl
  · rw [readTileNum_eq]
    exact .inl rfl
  · rcases readData0_cases (setAcc 0 s) with ⟨_, e⟩ | ⟨i, _, e⟩ <;> rw [e] <;> exact .inl rfl
  · rcases readData1_cases (setAcc 0 s) with ⟨_, e⟩ | ⟨i, _, ⟨_, e⟩ | ⟨_, e⟩⟩ <;> rw [e]
    · exact .inl rfl
    · exact .inr rfl
    · exact .inr rfl

theorem handOff_feeds (s : State) : (handOff s).All fun t =>
    t.collab.pipe = s.collab.pipe ∧ t.collab.rowPixels = s.collab.rowPixels ∧
      (t.collab.pipeIdle = s.collab.pipeIdle ∨ t.collab.pipeIdle = s.collab.pipeIdle.advance) := by
  rcases handOff_cases s with ⟨_, e⟩ | ⟨_, _, e⟩ | ⟨_, _, _, e⟩ | ⟨_, _, p, _, e⟩ <;> rw [e]
  · exact ⟨rfl, rfl, .inl rfl⟩
  all_goals exact ⟨rfl, rfl, .inr rfl⟩

/-- A turn takes one answer of `Pipe.process`, and of the row and idle answers at most one each. -/
theorem Turn.feeds {s u : State} (h : Turn s u) :
    u.collab.pipe = s.collab.pipe.advance ∧
    (u.collab.rowPixels = s.collab.rowPixels ∨ u.collab.rowPixels = s.collab.rowPixels.advance) ∧
    (u.collab.pipeIdle = s.collab.pipeIdle ∨ u.collab.pipeIdle = s.collab.pipeIdle.advance) := by
  obtain ⟨t, et, eu⟩ := h
  have k : FetchStepFrame (pipeProcess s).2 t := (fetcherStep_frame _).of_eq_go et
  have hrow := (fetcherStep_rowPixels _).of_eq_go et
  obtain ⟨hp, hr, hi⟩ := (handOff_feeds t).of_eq_go eu
  rw [k.pipe] at hp
  rw [k.idle] at hi
  rw [← hr] at hrow
  exact ⟨hp, hrow, hi⟩

theorem TurnContracts.of_turn {b : Bool} {k : Nat} {s u : State} (h : TurnContracts b (k + 1) s) (ht : Turn s u) :
    TurnContracts b k u := by
  obtain ⟨hp, hr, hi⟩ := ht.feeds
  refine ⟨h.cost.of_feed_advance hp, hr.elim h.rows.of_feed_eq h.rows.of_feed_advance, fun j hj => ?_⟩
  rcases hi with hi | hi <;> rw [hi]
  · exact h.idle j (Nat.lt_succ_of_lt hj)
  · rw [AnswerFeed.upcoming_advance]
    exact h.idle (j + 1) (Nat.succ_lt_succ hj)

theorem turnBudget_succ {k : Nat} {s u : State} (ht : Turn s u) :
    turnBudget (k + 1) s = (s.collab.pipe.answer Config.freePipeAnswer).cost + turnBudget k u := by
  rw [turnBudget, turnBudget, ht.feeds.1, List.range_succ_eq_map]
  simp [Function.comp_def]

theorem innerLoop_of_turn (n fuel : Nat) {rem : Int} {s u : State} (h : 0 < rem)
    (hcost : 1 ≤ (s.collab.pipe.answer Config.freePipeAnswer).cost) (ht : Turn s u) :
    innerLoop n (fuel + 1) rem s =
      innerLoop n fuel (rem - (s.collab.pipe.answer Config.freePipeAnswer).cost) u := by
  obtain ⟨t, et, eu⟩ := ht
  rw [innerLoop_succ, if_pos h, if_neg (Nat.pos_iff_ne_zero.1 hcost), et, Flow.andThen_go, eu, Flow.andThen_go]

/-- With the next `k` costs as its budget the inner loop takes `k` turns, so what each turn carries on by one is carried
on by `k` (R113). -/
theorem innerLoop_turns {P : Nat → State → Prop} {b : Bool} {n : Nat}
    (hturn : ∀ {j k s}, P j s → TurnContracts b (k + 1) s → ∃ u, Turn s u ∧ P (j + 1) u) {k fuel j : Nat} {s : State}
    (hs : P j s) (hc : TurnContracts b k s) (hfuel : turnBudget k s ≤ fuel) :
    ∃ u, innerLoop n fuel (turnBudget k s) s = .go u ∧ P (j + k) u := by
  induction k generalizing fuel j s with
  | zero => exact ⟨s, innerLoop_of_nonpos n fuel (Int.le_refl 0) s, hs⟩
  | succ k ih =>
    obtain ⟨u, ht, hu⟩ := hturn hs hc
    have hcost := hc.cost 0 k.succ_pos
    rw [AnswerFeed.upcoming_zero] at hcost
    rw [turnBudget_succ ht] at hfuel ⊢
    obtain ⟨fuel, rfl⟩ := Nat.exists_eq_succ_of_ne_zero (show fuel ≠ 0 by omega)
    obtain ⟨v, hv, hP⟩ := ih hu (hc.of_turn ht) (fuel := fuel) (by omega)
    refine ⟨v, ?_, by rwa [Nat.add_right_comm] at hP⟩
    rw [innerLoop_of_turn n fuel (by omega) hcost ht, Nat.cast_add, add_sub_cancel_left, hv]

/-! ## The column period (R153) -/

section ColumnPeriod

variable {s : State} {b : Bool} {k : Nat} (hf : s.f.Fed) (hc : TurnContracts b (k + 1) s)

include hf hc

/-- Steps (a) and (b) of a turn. -/
theorem turn_fetch : ∃ t, fetcherStep (pipeProcess s).2 = .go t ∧ t.f.Fed ∧ t.f.phase = min (s.f.phase + 1) 6 ∧
    LookupsAfter (if s.f.phase = 1 then 1 else 0) s t ∧ loadCount t.history = loadCount s.history ∧
    t.collab.pipeIdle.answer Config.freePipeIdle = b := by
  have hrow := hc.rows 0 k.succ_pos
  have hidle := hc.idle 0 k.succ_pos
  rw [AnswerFeed.upcoming_zero] at hrow hidle
  obtain ⟨t, et, ht, hp, hl⟩ := fetcherStep_phase (s := (pipeProcess s).2) hf hrow
  have hframe : FetchStepFrame (pipeProcess s).2 t := (fetcherStep_frame _).of_eq_go et
  refine ⟨t, et, ht, hp, ⟨hl.tileX, hl.lookups.trans ?_⟩, (loadCount_fetcherStep et).trans (loadCount_append _ _), ?_⟩
  · exact congrArg (· + _) (tileNumCount_append _ _)
  · rwa [hframe.idle]

/-- The turn in which the Fetcher reaches TRANSFER_READY and an idle pipeline takes the row. -/
theorem turn_of_idle (hp : s.f.phase = 5) (hb : b = true) :
    ∃ u, Turn s u ∧ u.f.Fed ∧ u.f.phase = 0 ∧ LookupsAfter 0 s u ∧
      loadCount u.history = loadCount s.history + 1 := by
  obtain ⟨t, et, ht, hpt, hlt, hload, hidle⟩ := turn_fetch hf hc
  rw [hp] at hpt hlt
  obtain ⟨u, eu, hu, hpu, hlu, hloadu⟩ := handOff_of_idle ht hpt (hidle.trans hb)
  exact ⟨u, ⟨t, et, eu⟩, hu, hpu, hlt.trans hlu, by rw [hloadu, hload]⟩

/-- A turn without a hand-off. -/
theorem turn_of_waiting (hp : 5 ≤ s.f.phase → b = false) :
    ∃ u, Turn s u ∧ u.f.Fed ∧ u.f.phase = min (s.f.phase + 1) 6 ∧
      LookupsAfter (if s.f.phase = 1 then 1 else 0) s u ∧ loadCount u.history = loadCount s.history := by
  obtain ⟨t, et, ht, hpt, hlt, hload, hidle⟩ := turn_fetch hf hc
  obtain ⟨u, eu, hu, hlu, hloadu⟩ := handOff_of_waiting ht fun h => hidle.trans (hp (by omega))
  exact ⟨u, ⟨t, et, eu⟩, hu ▸ ht, hu ▸ hpt, hlt.trans hlu, hloadu.trans hload⟩

end ColumnPeriod

/-- `j` turns after `s` with an always idle pipeline. -/
structure IdleTurns (s : State) (j : Nat) (t : State) : Prop where
  fed     : t.f.Fed
  phase   : t.f.phase = j % 6
  lookups : LookupsAfter ((j + 4) / 6) s t
  loads   : loadCount t.history = loadCount s.history + j / 6

/-- `j` turns after `s` with a never idle pipeline. -/
structure BusyTurns (s : State) (j : Nat) (t : State) : Prop where
  fed   : t.f.Fed
  phase : t.f.phase = min j 6
  loads : loadCount t.history = loadCount s.history

theorem IdleTurns.turn {s t : State} {j k : Nat} (h : IdleTurns s j t) (hc : TurnContracts true (k + 1) t) :
    ∃ u, Turn t u ∧ IdleTurns s (j + 1) u := by
  have hphase := h.phase
  have hloads := h.loads
  by_cases hp : t.f.phase = 5
  · obtain ⟨u, hu, hfed, hpu, hl, hload⟩ := turn_of_idle h.fed hc hp rfl
    have hcount : (j + 4) / 6 + 0 = (j + 1 + 4) / 6 := by omega
    exact ⟨u, hu, hfed, by omega, hcount ▸ h.lookups.trans hl, by omega⟩
  · obtain ⟨u, hu, hfed, hpu, hl, hload⟩ := turn_of_waiting h.fed hc (by omega)
    have hcount : (j + 4) / 6 + (if t.f.phase = 1 then 1 else 0) = (j + 1 + 4) / 6 := by split <;> omega
    exact ⟨u, hu, hfed, by omega, hcount ▸ h.lookups.trans hl, by omega⟩

theorem BusyTurns.turn {s t : State} {j k : Nat} (h : BusyTurns s j t) (hc : TurnContracts false (k + 1) t) :
    ∃ u, Turn t u ∧ BusyTurns s (j + 1) u := by
  obtain ⟨u, hu, hfed, hp, _, hload⟩ := turn_of_waiting h.fed hc fun _ => rfl
  have hphase := h.phase
  exact ⟨u, hu, hfed, by omega, hload.trans h.loads⟩

/-- Settles O27: the loop takes `k` turns, and each moves the Fetcher one phase on; the idle pipeline brings phase 6 back
to 0, the busy one leaves it there. -/
theorem columnPeriodOfTheInnerLoop : Obligations.ColumnPeriodOfTheInnerLoop := by
  intro n k fuel s hs hx ha
  dsimp only
  intro hcost hfuel hrows
  have hfed : s.f.Fed := ⟨by simp [ha], by simp [ha], by simp [hs], by simp [hs], by simp [hs]⟩
  have hphase : s.f.phase = 0 := by rw [Fetcher.phase, hs, ha]; rfl
  refine ⟨fun hidle => ?_, fun hbusy => ?_⟩
  · have h0 : IdleTurns s 0 s := ⟨hfed, hphase, ⟨rfl, rfl⟩, rfl⟩
    obtain ⟨t, et, ht⟩ := innerLoop_turns IdleTurns.turn h0 ⟨hcost, hrows, hidle⟩ hfuel
    rw [Nat.zero_add] at ht
    exact ⟨t, et, by rw [ht.lookups.tileX, hx, Nat.zero_add], ht.loads, ht.lookups.lookups⟩
  · have h0 : BusyTurns s 0 s := ⟨hfed, hphase, rfl⟩
    obtain ⟨t, et, ht⟩ := innerLoop_turns BusyTurns.turn h0 ⟨hcost, hrows, hbusy⟩ hfuel
    have hp := ht.phase
    refine ⟨t, et, ht.loads, ?_⟩
    rw [← ht.fed.phase_eq_six_iff]
    omega

end Sys2Proof.Machine

/-! The Interrupt Resolver (spec/43_interrupt_resolver.md). RESOLVE's selection is a search down the priority list for a
bit of `req & en`; the list names every kind once, in the order of the kind codes, so what the search finds is the pending
kind with the lowest code. -/

namespace Sys2Proof.Machine

/-! ## The selection as a search -/

/-- A kind is pending when its table bit is set in `req & en` (R167). -/
theorem pending_eq_getLsbD (t : IrqTable) (req en : Byte) (k : IrqKind) :
    pending t req en k = (req &&& en).getLsbD (irqDescriptor t k).bit.val :=
  BitVec.getLsbD_and.symm

theorem firstPending_eq_find? (t : IrqTable) (req en : Byte) (ks : List IrqKind) :
    firstPending t req en ks = ks.find? (pending t req en) := by
  induction ks with
  | nil => rfl
  | cons k ks ih => cases h : pending t req en k <;> simp [firstPending, h, ih]

theorem resolveKind_eq_find? (t : IrqTable) (req en : Byte) :
    resolveKind t req en = kindsByPriority.find? (pending t req en) :=
  firstPending_eq_find? t req en kindsByPriority

@[simp] theorem mem_kindsByPriority (k : IrqKind) : k ∈ kindsByPriority := by
  cases k <;> decide

/-- The priority order is the order of the kind codes (R98, R165). -/
theorem kindsByPriority_pairwise :
    kindsByPriority.Pairwise fun j k => (kindCode j).toNat < (kindCode k).toNat := by
  decide

/-- On a list in increasing order of `f`, a search finds the element with the least `f` that satisfies the test. -/
theorem find?_eq_some_iff_of_pairwise {α : Type} {f : α → Nat} {p : α → Bool} {l : List α} {a : α}
    (hl : l.Pairwise fun x y => f x < f y) :
    l.find? p = some a ↔ a ∈ l ∧ p a = true ∧ ∀ b ∈ l, f b < f a → p b = false := by
  induction l with
  | nil => simp
  | cons x l ih =>
    obtain ⟨hx, hl⟩ := List.pairwise_cons.1 hl
    cases hp : p x with
    | true =>
      rw [List.find?_cons_of_pos hp, Option.some_inj]
      constructor
      · rintro rfl
        refine ⟨List.mem_cons_self, hp, fun b hb hlt => ?_⟩
        rcases List.mem_cons.1 hb with rfl | hb
        · exact absurd hlt (Nat.lt_irrefl _)
        · exact absurd hlt (Nat.lt_asymm (hx b hb))
      · rintro ⟨ha, -, hmin⟩
        rcases List.mem_cons.1 ha with rfl | ha
        · rfl
        · exact absurd (hmin x List.mem_cons_self (hx a ha)) (by simp [hp])
    | false =>
      rw [List.find?_cons_of_neg (by simp [hp]), ih hl]
      constructor
      · rintro ⟨ha, hpa, hmin⟩
        exact ⟨List.mem_cons_of_mem x ha, hpa, List.forall_mem_cons.2 ⟨fun _ => hp, hmin⟩⟩
      · rintro ⟨ha, hpa, hmin⟩
        rcases List.mem_cons.1 ha with rfl | ha
        · exact absurd hpa (by simp [hp])
        · exact ⟨ha, hpa, (List.forall_mem_cons.1 hmin).2⟩

/-! ## The laws of R172 -/

/-- Law 1: the answer depends only on which kinds are pending. -/
theorem resolveKind_congr {t : IrqTable} {req en req' en' : Byte}
    (h : ∀ k, pending t req en k = pending t req' en' k) : resolveKind t req en = resolveKind t req' en' := by
  rw [resolveKind_eq_find?, resolveKind_eq_find?, funext h]

theorem resolveKind_eq_some_iff {t : IrqTable} {req en : Byte} {k : IrqKind} :
    resolveKind t req en = some k ↔ pending t req en k = true ∧
      ∀ j, (kindCode j).toNat < (kindCode k).toNat → pending t req en j = false := by
  rw [resolveKind_eq_find?, find?_eq_some_iff_of_pairwise kindsByPriority_pairwise]
  simp

theorem resolveKind_eq_none_iff {t : IrqTable} {req en : Byte} :
    resolveKind t req en = none ↔ ∀ k, pending t req en k = false := by
  simp [resolveKind_eq_find?]

/-- VBLANK has the highest priority. -/
theorem resolveKind_of_vblank {t : IrqTable} {req en : Byte} (h : pending t req en .vblank = true) :
    resolveKind t req en = some .vblank :=
  resolveKind_eq_some_iff.2 ⟨h, fun _ hj => absurd hj (Nat.not_lt_zero _)⟩

/-- Only VBLANK is above LCDC/STAT. -/
theorem resolveKind_of_lcdcStat {t : IrqTable} {req en : Byte} (h : pending t req en .lcdcStat = true)
    (hv : pending t req en .vblank = false) : resolveKind t req en = some .lcdcStat := by
  refine resolveKind_eq_some_iff.2 ⟨h, fun j hj => ?_⟩
  cases j with
  | vblank => exact hv
  | lcdcStat | timer | serial | joypad => exact absurd hj (by decide)

/-- Settles O41: RESOLVE's procedure only drives the answer, and each law reads the search at the pending bits. -/
theorem resolveAnswersTheHighestPending : Obligations.ResolveAnswersTheHighestPending := by
  refine ⟨fun s req en hs => exec_of_running hs _, fun t req en => ?_⟩
  simp only [← pending_eq_getLsbD]
  refine ⟨fun _ _ h => resolveKind_congr h, fun h => resolveKind_of_vblank ?_,
    fun h hv => resolveKind_of_lcdcStat ?_ ?_, fun _ => resolveKind_eq_some_iff, resolveKind_eq_none_iff⟩
  · exact Bool.and_eq_true_iff.2 (h .vblank)
  · exact Bool.and_eq_true_iff.2 (h .lcdcStat nofun)
  · exact Bool.and_eq_false_iff.2 hv

end Sys2Proof.Machine

/-! Faults, refusals and interrupts (spec/60_exceptions.md). A stopped block answers nothing but its mark. A refusal and a
fault are each traced back to the procedure they come from: a refusal to a fetch step's over-long row, a fault from the
invariant to a zero cost in the inner loop. -/

namespace Sys2Proof.Machine

/-! ## A stopped block (R186) -/

theorem whenRunning_of_fault {s : State} {c : FaultCode} (h : s.fault = some c)
    (k : State → Host.Outcome State Fault Refusal) : whenRunning s k = .fault (.blockFaulted c) := by
  simp [whenRunning, h]

theorem whenRunning_of_refused {s : State} (hf : s.fault = none) (hr : s.refused = true)
    (k : State → Host.Outcome State Fault Refusal) : whenRunning s k = .refused .blockRefused := by
  simp [whenRunning, hf, hr]

/-- Settles O11: commands and the port run only where `whenRunning` finds no mark. -/
theorem stoppedBlockTakesNoStep : Obligations.StoppedBlockTakesNoStep := by
  refine ⟨fun s c h => ⟨fun i => ?_, fun _ _ _ => whenRunning_of_fault h _⟩,
    fun s hf hr => ⟨fun i => ?_, fun _ _ _ => whenRunning_of_refused hf hr _⟩⟩ <;> rw [exec_eq_runCommand]
  · exact whenRunning_of_fault h _
  · exact whenRunning_of_refused hf hr _

/-! ## Where a refusal comes from (R77, R144, R185) -/

theorem Flow.andThen_eq_refuse {x : Flow} {k : State → Flow} {r : RefuseReason} {u : State}
    (h : x.andThen k = .refuse r u) : x = .refuse r u ∨ ∃ s, x = .go s ∧ k s = .refuse r u := by
  cases x with
  | go s => exact .inr ⟨s, rfl, h⟩
  | raise => cases h
  | refuse => exact .inl h

/-- From `s` the events led to `u`, and the last of them is the call for the pixel row of `s`'s scanline, answered with
more than 8 samples. -/
def EndsInLongRow (s u : State) : Prop :=
  ∃ (before : List Event) (tile : Tile) (p : List Pixel),
    u.history = s.history ++ before ++ [.rowPixels tile (s.cur.row % 8) p] ∧ 8 < p.length

/-- Events recorded earlier on the same scanline join those before the refused call. -/
theorem EndsInLongRow.of_history_grows {s v u : State} (h : EndsInLongRow v u) (hh : s.history <+: v.history)
    (hrow : v.cur.row = s.cur.row) : EndsInLongRow s u := by
  obtain ⟨before, tile, p, hu, hp⟩ := h
  obtain ⟨earlier, hv⟩ := hh
  exact ⟨earlier ++ before, tile, p, by simp [hu, ← hv, hrow], hp⟩

/-- A fetch step is refused at READ_DATA_1 alone, by the row it was answered (R77, R144). -/
theorem fetcherStep_refuse {s u : State} {r : RefuseReason} (h : fetcherStep s = .refuse r u) : EndsInLongRow s u := by
  rcases fetcherStep_cases s with ⟨_, e⟩ | ⟨_, _, e⟩ | ⟨_, _, e⟩ | ⟨_, _, e⟩ | ⟨_, _, e⟩ <;> rw [e] at h
  · cases h
  · cases h
  · cases h
  · rcases readData0_cases (setAcc 0 s) with ⟨_, e⟩ | ⟨i, _, e⟩ <;> rw [e] at h <;> cases h
  · rcases readData1_cases (setAcc 0 s) with ⟨_, e⟩ | ⟨tile, _, ⟨hp, e⟩ | ⟨_, e⟩⟩ <;> rw [e] at h <;> cases h
    exact ⟨[], tile, _, by rw [List.append_nil]; rfl, hp⟩

theorem handOff_ne_refuse (s u : State) (r : RefuseReason) : handOff s ≠ .refuse r u := by
  rcases handOff_cases s with ⟨_, e⟩ | ⟨_, _, e⟩ | ⟨_, _, _, e⟩ | ⟨_, _, p, _, e⟩ <;> rw [e] <;> nofun

/-- A turn of the inner loop only adds to the history, and keeps the row. -/
theorem Turn.history_row {s v : State} (h : Turn s v) : s.history <+: v.history ∧ v.cur.row = s.cur.row := by
  obtain ⟨t, hfetch, hhand⟩ := h
  have hgrows : (pipeProcess s).2.history <+: t.history :=
    ((fetcherStep_record (pipeProcess s).2).of_eq_go hfetch).history_grows
  have hrow : t.cur.row = s.cur.row := ((fetcherStep_frame (pipeProcess s).2).of_eq_go hfetch).same.row
  exact ⟨((List.prefix_append _ _).trans hgrows).trans ((handOff_history t).of_eq_go hhand),
    ((handOff_same t).of_eq_go hhand).1.row.trans hrow⟩

/-- The inner loop is refused by the fetch step of one of its turns. -/
theorem innerLoop_refuse {n fuel : Nat} {rem : Int} {s u : State} {r : RefuseReason}
    (h : innerLoop n fuel rem s = .refuse r u) : EndsInLongRow s u := by
  induction fuel generalizing rem s with
  | zero => cases h
  | succ fuel ih =>
    rw [innerLoop_succ] at h
    split_ifs at h with hrem hcost
    rcases Flow.andThen_eq_refuse h with hfetch | ⟨t, hfetch, h⟩
    · exact (fetcherStep_refuse hfetch).of_history_grows (List.prefix_append _ _) rfl
    · rcases Flow.andThen_eq_refuse h with hhand | ⟨v, hhand, h⟩
      · exact absurd hhand (handOff_ne_refuse t u r)
      · obtain ⟨hgrows, hrow⟩ := Turn.history_row ⟨t, hfetch, hhand⟩
        exact (ih h).of_history_grows hgrows hrow

/-- A command is refused in a fetch step, FPROC's or one of the inner loop; memory, responses, port and parameters are
as they were. -/
theorem commandBody_refuse {i : Instr} {s u : State} {r : RefuseReason} (h : commandBody i s = .refuse r u) :
    EndsInLongRow s u ∧ u.mem = s.mem ∧ u.responses = s.responses ∧ u.port = s.port ∧ u.cfg = s.cfg := by
  cases i with
  | tick n =>
    by_cases hm : s.mode = .pixelTransfer
    · rw [commandBody_tick_pixelTransfer n hm] at h
      rcases Flow.andThen_eq_refuse h with hloop | ⟨_, _, hexit⟩
      · have k := innerLoop_same n n n (s.setCyc (s.cyc + n))
        rw [hloop] at k
        exact ⟨innerLoop_refuse (s := s.setCyc (s.cyc + n)) hloop, k.mem, k.responses, k.port, k.cfg⟩
      · cases hexit
    · rw [commandBody_tick_of_ne hm] at h
      cases h
  | fproc =>
    have k := fetcherStep_frame s
    rw [show fetcherStep s = .refuse r u from h] at k
    exact ⟨fetcherStep_refuse h, k.same.mem, k.same.responses, k.same.port, k.same.cfg⟩
  | freset | resolve | reset => cases h

/-- A refused next state was refused by the command's procedure. -/
theorem exec_refused {i : Instr} {s t : State} (h : exec i s = .next t) (ht : t.refused = true) :
    ∃ r u, commandBody i s = .refuse r u ∧ t = (restoreRecord s u).setRefused := by
  obtain ⟨hs, rfl⟩ := exec_next h
  have hmarks := commandBody_marks hs i
  cases e : commandBody i s with
  | refuse r u => exact ⟨r, u, rfl, rfl⟩
  | go u | raise c u => rw [e] at ht hmarks; cases hmarks.no_refusal.symm.trans ht

/-- Settles O12: the block's record is restored, and the procedure ended in the call with the over-long row. -/
theorem refusedCommandChangesOnlyTheMark : Obligations.RefusedCommandChangesOnlyTheMark := by
  intro i s t h ht
  obtain ⟨r, u, hbody, rfl⟩ := exec_refused h ht
  obtain ⟨hrow, hmem, hresp, hport, hcfg⟩ := commandBody_refuse hbody
  exact ⟨by simp [restoreRecord, State.setRefused, hmem, hresp, hport, hcfg], hrow⟩

/-! ## The faults the invariant leaves (R52, R182-R184) -/

/-- FLT_PIPE_ZERO_COST, with any recorded operand and budget (R181). -/
def FaultCode.IsZeroCost (c : FaultCode) : Prop := ∃ n rem, c = .pipeZeroCost n rem

theorem Flow.Raises.of_never {C : FaultCode → Prop} {x : Flow} (h : x.Raises fun _ => False) : x.Raises C := by
  cases x with
  | raise => exact h.elim
  | go | refuse => trivial

theorem Flow.Raises.andThen {C : FaultCode → Prop} {P : State → Prop} {x : Flow} {k : State → Flow} (h : x.Raises C)
    (hp : x.All P) (hk : ∀ s, P s → (k s).Raises C) : (x.andThen k).Raises C := by
  cases x with
  | go s => exact hk s hp
  | raise => exact h
  | refuse => trivial

/-- With every field written before it is read, the inner loop faults on a zero cost alone (R114, R182). -/
theorem innerLoop_raises (n : Nat) {fuel : Nat} {rem : Int} {s : State} (h : s.f.Inv) :
    (innerLoop n fuel rem s).Raises FaultCode.IsZeroCost := by
  induction fuel generalizing rem s with
  | zero => trivial
  | succ fuel ih =>
    rw [innerLoop_succ]
    split_ifs
    · exact ⟨n, rem, rfl⟩
    · obtain ⟨hfetch, hfetchRaises⟩ := fetcherStep_inv (s := (pipeProcess s).2) h
      refine .andThen (.of_never hfetchRaises) hfetch fun t ht => ?_
      obtain ⟨hhand, hhandRaises⟩ := handOff_inv ht
      exact .andThen (.of_never hhandRaises) hhand fun _ => ih
    · trivial

theorem commandBody_raises (i : Instr) {s : State} (h : s.f.Inv) :
    (commandBody i s).Raises FaultCode.IsZeroCost := by
  cases i with
  | tick n =>
    by_cases hm : s.mode = .pixelTransfer
    · rw [commandBody_tick_pixelTransfer n hm]
      exact .andThen (innerLoop_raises n h) (innerLoop_inv (s := s.setCyc (s.cyc + n)) h n n n) fun _ _ => trivial
    · rw [commandBody_tick_of_ne hm]
      trivial
  | fproc => exact .of_never (fetcherStep_inv h).2
  | freset | resolve | reset => trivial

/-- A command leaves no fault, or the zero-cost fault, when the Fetcher's fields agree with its state. -/
theorem exec_fault_isZeroCost {i : Instr} {s t : State} (hf : s.f.Inv) (h : exec i s = .next t) :
    t.fault = none ∨ ∃ n rem, t.fault = some (.pipeZeroCost n rem) := by
  cases hc : t.fault with
  | none => exact .inl rfl
  | some c =>
    obtain ⟨u, hbody, _⟩ := exec_fault h hc
    have hraises := commandBody_raises i hf
    rw [hbody] at hraises
    obtain ⟨n, rem, rfl⟩ := hraises
    exact .inr ⟨n, rem, rfl⟩

theorem applyMove_fault (m : HostMove) (s : State) : (applyMove m s).fault = s.fault := by
  cases m <;> rfl

/-- Settles O17: of the moves at the port only a command can fault. -/
theorem onlyZeroCostFaultsFromTheInvariant : Obligations.OnlyZeroCostFaultsFromTheInvariant := by
  intro s t hs hrun h
  rcases step_cases h with ⟨_, rfl⟩ | ⟨_, i, rest, _, _, h⟩ | ⟨_, rest, _, rfl⟩ | ⟨m, rest, _, rfl⟩
  · exact .inl hrun.no_fault
  · exact exec_fault_isZeroCost (s := s.setPort rest) hs.fetcher h
  · exact .inl hrun.no_fault
  · exact .inl ((applyMove_fault m _).trans hrun.no_fault)

/-! ## No command clears a request, a latch or an enable (R190) -/

/-- A latched raise only sets bits. -/
theorem RaiseOutcome.keeps_bits {test set : Byte} {b : Fin 8} {s t : State} (h : RaiseOutcome test set b s t) :
    (∀ j, (readReg s .iflag).getLsbD j = true → (readReg t .iflag).getLsbD j = true) ∧
    (∀ j, (readReg s .stat).getLsbD j = true → (readReg t .stat).getLsbD j = true) := by
  rw [h.iflag, h.stat]
  by_cases hl : readReg s .stat &&& test ≠ 0
  · rw [if_pos hl, if_pos hl]
    exact ⟨fun _ => id, fun _ => id⟩
  · rw [if_neg hl, if_neg hl]
    constructor <;> intro j hj <;> rw [BitVec.getLsbD_or, hj, Bool.true_or]

/-- The block never writes IE (R64). -/
theorem tick_ienable {n : Nat} {s t : State} (hc : s.cfg.Wf) (hw : Memory.wf s.mem = true)
    (h : exec (.tick n) s = .next t) : readReg t .ienable = readReg s .ienable := by
  obtain ⟨_, _, _, hif, hstat, hly⟩ := written_addrs_distinct hc
  rw [readReg, (exec_port_cfg h).2]
  exact tick_read_other h hw hif hstat hly

/-- A command writes memory at an exit that makes a latched raise, or not at all (R64, R118). -/
theorem exec_mem_or_raiseOutcome {i : Instr} {s t : State} (hc : s.cfg.Wf) (hw : Memory.wf s.mem = true)
    (h : exec i s = .next t) :
    t.mem = s.mem ∨ ∃ n, i = .tick n ∧ ∃ test set b, RaiseOutcome test set b s t := by
  by_cases hx : ∃ n, i = .tick n ∧ ExitDue n s ∧ (s.mode = .hblank ∨ s.mode = .vblank)
  · obtain ⟨n, rfl, hd, hm | hm⟩ := hx
    · exact .inr ⟨n, rfl, _, _, _, hblank_exit_raiseOutcome hc hw h hd hm⟩
    · exact .inr ⟨n, rfl, _, _, _, vblank_exit_raiseOutcome hc hw h hd hm⟩
  · exact .inl (exec_mem h fun n hn hd => ⟨fun hm => hx ⟨n, hn, hd, .inl hm⟩, fun hm => hx ⟨n, hn, hd, .inr hm⟩⟩)

/-- Settles O43: a command leaves memory or makes a latched raise; an outside write is the one of O10. -/
theorem noCommandClearsIfStatOrIe : Obligations.NoCommandClearsIfStatOrIe := by
  refine ⟨fun i s t hc hw h => ?_, fun s r v rest hs hw hp => ?_⟩
  · rcases exec_mem_or_raiseOutcome hc hw h with hmem | ⟨n, rfl, _, _, _, hraise⟩
    · have hread (r : Reg) : readReg t r = readReg s r := by rw [readReg, readReg, hmem, (exec_port_cfg h).2]
      simp [hread]
    · obtain ⟨hif, hstat⟩ := hraise.keeps_bits
      exact ⟨hif, hstat, tick_ienable hc hw h⟩
  · obtain ⟨m, hstep, _, hread⟩ := (hostMovesChangeOnlyWhatTheyName s rest hs hw).1 r v hp
    exact ⟨_, hstep, (hread _).trans (if_pos rfl)⟩

end Sys2Proof.Machine

/-! Reset (spec/70_reset_and_hazards.md). RESET is its procedure, run from a running state. Power-on lays INIT_REGS out
by one write per register; the seven addresses are distinct, so no later write overwrites an earlier one. -/

namespace Sys2Proof.Machine

/-! ## INIT_REGS in memory (R201) -/

/-- The registers in the order in which `initMemory` writes them. -/
def initOrder : List Reg := [.lcdc, .stat, .scy, .scx, .ly, .iflag, .ienable]

theorem mem_initOrder (r : Reg) : r ∈ initOrder := by cases r <;> decide

/-- The INIT_REGS byte of a register. -/
def InitRegs.byte (r : InitRegs) : Reg → Byte
  | .lcdc    => r.lcdc
  | .stat    => r.stat
  | .scy     => r.scy
  | .scx     => r.scx
  | .ly      => r.ly
  | .iflag   => r.iflag
  | .ienable => r.ienable

/-- Registers written one after the other, each at its configured address. -/
def writeRegs (c : Config) (v : Reg → Byte) (regs : List Reg) (m : Memory) : Memory :=
  regs.foldl (fun m r => Memory.write m (regAddr c r) (v r)) m

@[simp] theorem writeRegs_cons (c : Config) (v : Reg → Byte) (r : Reg) (regs : List Reg) (m : Memory) :
    writeRegs c v (r :: regs) m = writeRegs c v regs (Memory.write m (regAddr c r) (v r)) := rfl

theorem initMemory_eq_writeRegs (c : Config) (r : InitRegs) : initMemory c r = writeRegs c r.byte initOrder [] := rfl

theorem regAddrs_eq_map (c : Config) : c.regAddrs = initOrder.map (regAddr c) := rfl

/-- An address of none of the registers keeps its byte. -/
theorem writeRegs_read_other {c : Config} (v : Reg → Byte) {regs : List Reg} {m : Memory} (hm : Memory.wf m = true)
    {a : Nat} (ha : a ∉ regs.map (regAddr c)) : Memory.read (writeRegs c v regs m) a = Memory.read m a := by
  induction regs generalizing m with
  | nil => rfl
  | cons r regs ih =>
    have hne := List.ne_of_not_mem_cons ha
    have hrest := List.not_mem_of_not_mem_cons ha
    rw [writeRegs_cons, ih (Memory.wf_write hm _ _) hrest, Memory.read_write_other hm hne]

/-- With distinct addresses each register keeps the byte written to it. -/
theorem writeRegs_read_reg {c : Config} (v : Reg → Byte) {regs : List Reg} {m : Memory} (hm : Memory.wf m = true)
    (hd : (regs.map (regAddr c)).Nodup) {r : Reg} (hr : r ∈ regs) :
    Memory.read (writeRegs c v regs m) (regAddr c r) = v r := by
  induction regs generalizing m with
  | nil => nomatch hr
  | cons q regs ih =>
    obtain ⟨hq, hrest⟩ := List.nodup_cons.1 hd
    have hw := Memory.wf_write hm (regAddr c q) (v q)
    rw [writeRegs_cons]
    rcases List.mem_cons.1 hr with rfl | hr
    · rw [writeRegs_read_other v hw hq, Memory.read_write_same hm]
    · exact ih hw hrest hr

/-- At power-on a register reads its INIT_REGS byte. -/
theorem readReg_launch {c : Config} (hc : c.Wf) (r : InitRegs) (moves : List HostMove) (env : Collaborators)
    (reg : Reg) : readReg (launch c r moves env) reg = r.byte reg := by
  have hd : (initOrder.map (regAddr c)).Nodup := regAddrs_eq_map c ▸ hc.addrs_distinct
  rw [readReg, launch, initMemory_eq_writeRegs]
  exact writeRegs_read_reg r.byte rfl hd (mem_initOrder reg)

/-- Settles O14: the launch inputs replace only parameters, memory, port and collaborators of the reset state; the
registers read as `readReg_launch` says. -/
theorem powerOnHoldsTheResetStateAndInitRegs : Obligations.PowerOnHoldsTheResetStateAndInitRegs := by
  intro c r moves env hc s
  have hread : ∀ reg, readReg s reg = r.byte reg := readReg_launch hc r moves env
  exact ⟨rfl, rfl, rfl, rfl, rfl, rfl, rfl, hread .lcdc, hread .stat, hread .scy, hread .scx, hread .ly, hread .iflag,
    hread .ienable⟩

/-! ## RESET (R200) -/

/-- Settles O13: a running block answers RESET's procedure, whose writes `blockReset_eq` lists. -/
theorem resetCommandGivesTheResetState : Obligations.ResetCommandGivesTheResetState := by
  intro s hs
  rw [exec_of_running hs, commandBody, settle_go, blockReset_eq]
  rfl

end Sys2Proof.Machine
